-- ==== Sys2Proof/Word.lean ====
section
/-! DEFINITION. The word types of the machine: their widths are those of 00_scope.md R7 and 10_state.md R20 to R25. Every quantity is unsigned (00_scope.md R9). -/

namespace Sys2Proof

/-- A byte: a V register, a timer, a memory cell (`REG_W` of R7). -/
abbrev Byte := BitVec 8

/-- A 12-bit address: I, pc, a call-stack entry, the field nnn (`ADDR_W` of R7). -/
abbrev Addr := BitVec 12

/-- A 16-bit instruction word (30_encoding.md R90). -/
abbrev Word := BitVec 16

/-- The number of a general register, 0 to 15 (10_state.md R20). -/
abbrev RegIdx := Fin 16

/-- The number of a key, 0x0 to 0xF (10_state.md R34). -/
abbrev Key := Fin 16

end Sys2Proof
end

