-- ==== Sys2Proof/Syntax.lean ====
section
/-! DEFINITION. The instructions: one constructor per row of spec/opcode_table.json, in the table's order (30_encoding.md R96). A constructor's arguments are the row's fields (R91). -/

namespace Sys2Proof

inductive Instr where
  /-- 00E0 CLS (R181). -/
  | cls
  /-- 00EE RET (R121). -/
  | ret
  /-- 0NNN SYS, every nnn but 0x0E0 and 0x0EE (R122). -/
  | sys (nnn : Addr)
  /-- 1NNN JP (R123). -/
  | jp (nnn : Addr)
  /-- 2NNN CALL (R124). -/
  | call (nnn : Addr)
  /-- 3XNN SE_VX_NN (R125). -/
  | seVxNn (x : RegIdx) (nn : Byte)
  /-- 4XNN SNE_VX_NN (R126). -/
  | sneVxNn (x : RegIdx) (nn : Byte)
  /-- 5XY0 SE_VX_VY (R127). -/
  | seVxVy (x y : RegIdx)
  /-- 6XNN LD_VX_NN (R141). -/
  | ldVxNn (x : RegIdx) (nn : Byte)
  /-- 7XNN ADD_VX_NN (R142). -/
  | addVxNn (x : RegIdx) (nn : Byte)
  /-- 8XY0 LD_VX_VY (R143). -/
  | ldVxVy (x y : RegIdx)
  /-- 8XY1 OR_VX_VY (R144). -/
  | orVxVy (x y : RegIdx)
  /-- 8XY2 AND_VX_VY (R145). -/
  | andVxVy (x y : RegIdx)
  /-- 8XY3 XOR_VX_VY (R146). -/
  | xorVxVy (x y : RegIdx)
  /-- 8XY4 ADD_VX_VY (R147). -/
  | addVxVy (x y : RegIdx)
  /-- 8XY5 SUB_VX_VY (R148). -/
  | subVxVy (x y : RegIdx)
  /-- 8XY6 SHR_VX (R149); y is decoded and ignored (R100). -/
  | shrVx (x y : RegIdx)
  /-- 8XY7 SUBN_VX_VY (R150). -/
  | subnVxVy (x y : RegIdx)
  /-- 8XYE SHL_VX (R151); y is decoded and ignored (R100). -/
  | shlVx (x y : RegIdx)
  /-- 9XY0 SNE_VX_VY (R128). -/
  | sneVxVy (x y : RegIdx)
  /-- ANNN LD_I_NNN (R161). -/
  | ldINnn (nnn : Addr)
  /-- BNNN JP_V0_NNN (R129). -/
  | jpV0Nnn (nnn : Addr)
  /-- CXNN RND_VX_NN (R152). -/
  | rndVxNn (x : RegIdx) (nn : Byte)
  /-- DXYN DRW_VX_VY_N (R182). -/
  | drwVxVyN (x y : RegIdx) (n : BitVec 4)
  /-- EX9E SKP_VX (R201). -/
  | skpVx (x : RegIdx)
  /-- EXA1 SKNP_VX (R202). -/
  | sknpVx (x : RegIdx)
  /-- FX07 LD_VX_DT (R203). -/
  | ldVxDt (x : RegIdx)
  /-- FX0A LD_VX_K (R204). -/
  | ldVxK (x : RegIdx)
  /-- FX15 LD_DT_VX (R205). -/
  | ldDtVx (x : RegIdx)
  /-- FX18 LD_ST_VX (R206). -/
  | ldStVx (x : RegIdx)
  /-- FX1E ADD_I_VX (R162). -/
  | addIVx (x : RegIdx)
  /-- FX29 LD_F_VX (R163). -/
  | ldFVx (x : RegIdx)
  /-- FX33 LD_B_VX (R164). -/
  | ldBVx (x : RegIdx)
  /-- FX55 LD_MEM_VX (R165). -/
  | ldMemVx (x : RegIdx)
  /-- FX65 LD_VX_MEM (R166). -/
  | ldVxMem (x : RegIdx)
  deriving DecidableEq, Repr

end Sys2Proof
end

