-- ==== Sys2Proof/Decode.lean ====
section
/-! DEFINITION. The decoder and the encoder, both written from the encoding table of 30_encoding.md R96. Decoding is total on any bytes and rejects by name (R92, R98). -/

namespace Sys2Proof

/-! ## Fields (R91): contiguous unsigned slices of the word -/

/-- x = w[11:8]. -/
def fieldX (w : Word) : RegIdx := (w.extractLsb' 8 4).toFin

/-- y = w[7:4]. -/
def fieldY (w : Word) : RegIdx := (w.extractLsb' 4 4).toFin

/-- n = w[3:0]. -/
def fieldN (w : Word) : BitVec 4 := w.extractLsb' 0 4

/-- nn = w[7:0]. -/
def fieldNN (w : Word) : Byte := w.extractLsb' 0 8

/-- nnn = w[11:0]. -/
def fieldNNN (w : Word) : Addr := w.extractLsb' 0 12

/-! ## The opcode map (R96) -/

/-- One row of R96: a word matches when `w AND mask = value` (R95), and `build` reads the row's fields. -/
structure OpcodeRow where
  mnemonic : String
  mask : Word
  value : Word
  build : Word → Instr

/-- R96, rows 1 to 8: opcodes 0 to 5. -/
def opcodesFlow : List OpcodeRow :=
  [
   ⟨"CLS", 0xFFFF#16, 0x00E0#16, fun _ => .cls⟩,
   ⟨"RET", 0xFFFF#16, 0x00EE#16, fun _ => .ret⟩,
   ⟨"SYS", 0xF000#16, 0x0000#16, fun w => .sys (fieldNNN w)⟩,
   ⟨"JP", 0xF000#16, 0x1000#16, fun w => .jp (fieldNNN w)⟩,
   ⟨"CALL", 0xF000#16, 0x2000#16, fun w => .call (fieldNNN w)⟩,
   ⟨"SE_VX_NN", 0xF000#16, 0x3000#16, fun w => .seVxNn (fieldX w) (fieldNN w)⟩,
   ⟨"SNE_VX_NN", 0xF000#16, 0x4000#16, fun w => .sneVxNn (fieldX w) (fieldNN w)⟩,
   ⟨"SE_VX_VY", 0xF00F#16, 0x5000#16, fun w => .seVxVy (fieldX w) (fieldY w)⟩]

/-- R96, rows 9 to 20: opcodes 6 to 9. -/
def opcodesLoadAlu : List OpcodeRow :=
  [
   ⟨"LD_VX_NN", 0xF000#16, 0x6000#16, fun w => .ldVxNn (fieldX w) (fieldNN w)⟩,
   ⟨"ADD_VX_NN", 0xF000#16, 0x7000#16, fun w => .addVxNn (fieldX w) (fieldNN w)⟩,
   ⟨"LD_VX_VY", 0xF00F#16, 0x8000#16, fun w => .ldVxVy (fieldX w) (fieldY w)⟩,
   ⟨"OR_VX_VY", 0xF00F#16, 0x8001#16, fun w => .orVxVy (fieldX w) (fieldY w)⟩,
   ⟨"AND_VX_VY", 0xF00F#16, 0x8002#16, fun w => .andVxVy (fieldX w) (fieldY w)⟩,
   ⟨"XOR_VX_VY", 0xF00F#16, 0x8003#16, fun w => .xorVxVy (fieldX w) (fieldY w)⟩,
   ⟨"ADD_VX_VY", 0xF00F#16, 0x8004#16, fun w => .addVxVy (fieldX w) (fieldY w)⟩,
   ⟨"SUB_VX_VY", 0xF00F#16, 0x8005#16, fun w => .subVxVy (fieldX w) (fieldY w)⟩,
   ⟨"SHR_VX", 0xF00F#16, 0x8006#16, fun w => .shrVx (fieldX w) (fieldY w)⟩,
   ⟨"SUBN_VX_VY", 0xF00F#16, 0x8007#16, fun w => .subnVxVy (fieldX w) (fieldY w)⟩,
   ⟨"SHL_VX", 0xF00F#16, 0x800E#16, fun w => .shlVx (fieldX w) (fieldY w)⟩,
   ⟨"SNE_VX_VY", 0xF00F#16, 0x9000#16, fun w => .sneVxVy (fieldX w) (fieldY w)⟩]

/-- R96, rows 21 to 26: opcodes A to E. -/
def opcodesAddress : List OpcodeRow :=
  [
   ⟨"LD_I_NNN", 0xF000#16, 0xA000#16, fun w => .ldINnn (fieldNNN w)⟩,
   ⟨"JP_V0_NNN", 0xF000#16, 0xB000#16, fun w => .jpV0Nnn (fieldNNN w)⟩,
   ⟨"RND_VX_NN", 0xF000#16, 0xC000#16, fun w => .rndVxNn (fieldX w) (fieldNN w)⟩,
   ⟨"DRW_VX_VY_N", 0xF000#16, 0xD000#16, fun w => .drwVxVyN (fieldX w) (fieldY w) (fieldN w)⟩,
   ⟨"SKP_VX", 0xF0FF#16, 0xE09E#16, fun w => .skpVx (fieldX w)⟩,
   ⟨"SKNP_VX", 0xF0FF#16, 0xE0A1#16, fun w => .sknpVx (fieldX w)⟩]

/-- R96, rows 27 to 35: opcode F. -/
def opcodesDevice : List OpcodeRow :=
  [
   ⟨"LD_VX_DT", 0xF0FF#16, 0xF007#16, fun w => .ldVxDt (fieldX w)⟩,
   ⟨"LD_VX_K", 0xF0FF#16, 0xF00A#16, fun w => .ldVxK (fieldX w)⟩,
   ⟨"LD_DT_VX", 0xF0FF#16, 0xF015#16, fun w => .ldDtVx (fieldX w)⟩,
   ⟨"LD_ST_VX", 0xF0FF#16, 0xF018#16, fun w => .ldStVx (fieldX w)⟩,
   ⟨"ADD_I_VX", 0xF0FF#16, 0xF01E#16, fun w => .addIVx (fieldX w)⟩,
   ⟨"LD_F_VX", 0xF0FF#16, 0xF029#16, fun w => .ldFVx (fieldX w)⟩,
   ⟨"LD_B_VX", 0xF0FF#16, 0xF033#16, fun w => .ldBVx (fieldX w)⟩,
   ⟨"LD_MEM_VX", 0xF0FF#16, 0xF055#16, fun w => .ldMemVx (fieldX w)⟩,
   ⟨"LD_VX_MEM", 0xF0FF#16, 0xF065#16, fun w => .ldVxMem (fieldX w)⟩]

/-- The 35 rows of R96 in the table's order, which is a priority order: 00E0 and 00EE stand before 0NNN (R97). -/
def opcodeTable : List OpcodeRow := opcodesFlow ++ opcodesLoadAlu ++ opcodesAddress ++ opcodesDevice

/-- Does the word match the row (R95)? -/
def OpcodeRow.hits (w : Word) (r : OpcodeRow) : Bool := w &&& r.mask == r.value

/-- The first row in priority order that the word matches (R94 point 3, R97); none for an illegal word (R98). -/
def decodeWord (w : Word) : Option Instr :=
  (opcodeTable.find? (OpcodeRow.hits w)).map fun r => r.build w

/-- Why bytes are no instruction. -/
inductive DecodeError where
  /-- Fewer than the two bytes every instruction has (R90). -/
  | truncated
  /-- The word matches no row (R98). -/
  | illegalOpcode (w : Word)
  deriving DecidableEq, Repr

/-- Decodes the first instruction of a byte sequence, high byte first (20_memory.md R61), and answers it with the bytes after it. -/
def decode : List Byte → Except DecodeError (Instr × List Byte)
  | hi :: lo :: rest =>
    match decodeWord (hi ++ lo) with
    | some i => .ok (i, rest)
    | none => .error (.illegalOpcode (hi ++ lo))
  | _ => .error .truncated

/-- The instruction the decoder reads from a table row's word: its two bytes as memory holds them, the high byte first. -/
def decodeTableWord (nbits w : Nat) : Option Instr :=
  let word := BitVec.ofNat 16 (w % 2 ^ nbits)
  match decode [word.extractLsb' 8 8, word.extractLsb' 0 8] with
  | .ok (i, _) => some i
  | .error _ => none

/-! ## The encoder -/

/-- op || nnn (format NNN of R91). -/
def wordNNN (op : BitVec 4) (nnn : Addr) : Word := op ++ nnn

/-- op || x || nn (formats XNN and X of R91). -/
def wordXNN (op : BitVec 4) (x : RegIdx) (nn : Byte) : Word := (op ++ BitVec.ofFin (w := 4) x) ++ nn

/-- op || x || y || n (format XYN of R91). -/
def wordXYN (op : BitVec 4) (x y : RegIdx) (n : BitVec 4) : Word :=
  ((op ++ BitVec.ofFin (w := 4) x) ++ BitVec.ofFin (w := 4) y) ++ n

/-- The word of an instruction, from the patterns of R96. -/
def encode : Instr → Word
  | .cls => 0x00E0#16
  | .ret => 0x00EE#16
  | .sys nnn => wordNNN 0x0#4 nnn
  | .jp nnn => wordNNN 0x1#4 nnn
  | .call nnn => wordNNN 0x2#4 nnn
  | .seVxNn x nn => wordXNN 0x3#4 x nn
  | .sneVxNn x nn => wordXNN 0x4#4 x nn
  | .seVxVy x y => wordXYN 0x5#4 x y 0x0#4
  | .ldVxNn x nn => wordXNN 0x6#4 x nn
  | .addVxNn x nn => wordXNN 0x7#4 x nn
  | .ldVxVy x y => wordXYN 0x8#4 x y 0x0#4
  | .orVxVy x y => wordXYN 0x8#4 x y 0x1#4
  | .andVxVy x y => wordXYN 0x8#4 x y 0x2#4
  | .xorVxVy x y => wordXYN 0x8#4 x y 0x3#4
  | .addVxVy x y => wordXYN 0x8#4 x y 0x4#4
  | .subVxVy x y => wordXYN 0x8#4 x y 0x5#4
  | .shrVx x y => wordXYN 0x8#4 x y 0x6#4
  | .subnVxVy x y => wordXYN 0x8#4 x y 0x7#4
  | .shlVx x y => wordXYN 0x8#4 x y 0xE#4
  | .sneVxVy x y => wordXYN 0x9#4 x y 0x0#4
  | .ldINnn nnn => wordNNN 0xA#4 nnn
  | .jpV0Nnn nnn => wordNNN 0xB#4 nnn
  | .rndVxNn x nn => wordXNN 0xC#4 x nn
  | .drwVxVyN x y n => wordXYN 0xD#4 x y n
  | .skpVx x => wordXNN 0xE#4 x 0x9E#8
  | .sknpVx x => wordXNN 0xE#4 x 0xA1#8
  | .ldVxDt x => wordXNN 0xF#4 x 0x07#8
  | .ldVxK x => wordXNN 0xF#4 x 0x0A#8
  | .ldDtVx x => wordXNN 0xF#4 x 0x15#8
  | .ldStVx x => wordXNN 0xF#4 x 0x18#8
  | .addIVx x => wordXNN 0xF#4 x 0x1E#8
  | .ldFVx x => wordXNN 0xF#4 x 0x29#8
  | .ldBVx x => wordXNN 0xF#4 x 0x33#8
  | .ldMemVx x => wordXNN 0xF#4 x 0x55#8
  | .ldVxMem x => wordXNN 0xF#4 x 0x65#8

end Sys2Proof
end

