-- ==== Sys2Proof/Machine/Flags.lean ====
section
/-! DEFINITION. The values instructions write into VF as a flag (10_state.md R22): the whole register becomes 0x00 or 0x01. -/

namespace Sys2Proof.Machine

/-- A flag as the byte VF receives. -/
def flagByte (b : Bool) : Byte := if b then 0x01 else 0x00

/-- Carry of 8XY4: the unwrapped sum exceeds 255 (41_register_alu.md R147). -/
def addCarry (a b : Byte) : Bool := a.toNat + b.toNat > 255

/-- NOT borrow of a − b: false exactly when the subtrahend exceeds the minuend (R148, R150). -/
def noBorrow (a b : Byte) : Bool := !decide (b.toNat > a.toNat)

/-- The bit 8XY6 shifts out, bit 0 (R149). -/
def shiftedOutRight (a : Byte) : Bool := a.getLsbD 0

/-- The bit 8XYE shifts out, bit 7 (R151). -/
def shiftedOutLeft (a : Byte) : Bool := a.getLsbD 7

/-- Overflow of I + V[x] past 0xFFF (42_index_memory.md R162). -/
def indexOverflow (i : Addr) (v : Byte) : Bool := i.toNat + v.toNat > 0xFFF

end Sys2Proof.Machine
end

