-- ==== Sys2Proof/Config.lean ====
section
/-! DEFINITION. What an implementation fixes (the parameters of 00_scope.md R7 and R8) and the free values the spec leaves open. A `Config` is plain data and stands in `State.cfg`, so that a statement about every state is a statement about every admitted parameter value (log 1). -/

namespace Sys2Proof

/-- ON_ILLEGAL (R8, 60_exceptions.md R234): what an illegal word does. -/
inductive OnIllegal where
  | halt
  | skip
  deriving DecidableEq, Repr

/-- KEY_SELECT (R8, D11): which pressed key FX0A stores when several are down. `lowest` is R8's default; `other p` is any
other choice, the free value `Config.keyChoice p` (log 4). -/
inductive KeySelect where
  | lowest
  | other (policy : Nat)
  deriving DecidableEq, Repr

/-- The open parameters of R8 that the running machine reads. ROM is the argument of a reset, RAND a free value, and no rule
depends on IPS. -/
structure Config where
  /-- FONT_BASE, with `FONT_BASE + 80 <= 0x200`: at most 0x1B0 = 432. -/
  fontBase : Fin 433
  /-- FONT: 16 glyphs of 5 bytes (10_state.md R36). -/
  font : Vector Byte 80
  /-- FX1E_SETS_VF (42_index_memory.md R162). -/
  fx1eSetsVF : Bool
  onIllegal : OnIllegal
  keySelect : KeySelect
  deriving DecidableEq, Repr

/-- RAND (R38, R152): the byte of the n-th draw. A FREE VALUE: no body, so nothing can be proved of it (log 3). -/
opaque Config.rand : Nat → Byte

/-- The key that the choice function number p prefers among the pressed keys, listed in rising order. A FREE VALUE, limited to the
pressed keys where it is used (R204, log 4). -/
opaque Config.keyChoice : Nat → List Key → Key

end Sys2Proof
end

