-- ==== Sys2Proof/Machine/Memory.lean ====
section
/-! DEFINITION. The one memory of 4096 bytes (20_memory.md R60), held as a list of cells in one canonical form. A multi-byte sequence lies at ascending addresses (R62); all accesses go through `read`, `write` and `writeBytes`. -/

namespace Sys2Proof.Machine

/-- (address, byte) cells. The canonical form is `Memory.wf`. -/
abbrev Memory := List Host.Cell

/-- What a byte that no cell lists reads as: 0x00, the reset value of every byte outside the font and the ROM
(10_state.md R39, D5; log 8). -/
def Memory.unlisted : Byte := 0x00

/-- The number of addressable bytes (MEM_SIZE of 00_scope.md R7). -/
abbrev Memory.size : Nat := 4096

/-- MemRead(a, 1) of 00_scope.md R10; the caller has checked the address. -/
def Memory.read : Memory → Nat → Byte
  | [], _ => Memory.unlisted
  | c :: m, a => if c.1 = a then c.2 else Memory.read m a

/-- MemWrite(a, 1, v) of 00_scope.md R10, keeping the canonical form; the caller has checked the address. -/
def Memory.write : Memory → Nat → Byte → Memory
  | [], a, v => if v = Memory.unlisted then [] else [(a, v)]
  | c :: m, a, v =>
    if c.1 < a then c :: Memory.write m a v
    else
      let rest := if c.1 = a then m else c :: m
      if v = Memory.unlisted then rest else (a, v) :: rest

/-- Bytes stored one after the other from address a upward (R62, R165). -/
def Memory.writeBytes : Memory → Nat → List Byte → Memory
  | m, _, [] => m
  | m, a, v :: vs => Memory.writeBytes (Memory.write m a v) (a + 1) vs

/-- The canonical form: addresses strictly rising, every one of them below 4096, and no listed byte equal to what an unlisted
address reads as. -/
abbrev Memory.wf (m : Memory) : Prop :=
  m.Pairwise (fun c d => c.1 < d.1) ∧ ∀ c ∈ m, c.1 < Memory.size ∧ c.2 ≠ Memory.unlisted

end Sys2Proof.Machine
end

