-- ==== Sys2Proof/Machine/Boot.lean ====
section
/-! DEFINITION. The values reset leaves (10_state.md R39) and the parameters' defaults (00_scope.md R8), which `State.reset` uses. -/

namespace Sys2Proof.Machine

/-- The default font, digits 0 to 7 (10_state.md R36). -/
def defaultFontLow : List Byte :=
  [0xF0, 0x90, 0x90, 0x90, 0xF0] ++ [0x20, 0x60, 0x20, 0x20, 0x70] ++
  [0xF0, 0x10, 0xF0, 0x80, 0xF0] ++ [0xF0, 0x10, 0xF0, 0x10, 0xF0] ++
  [0x90, 0x90, 0xF0, 0x10, 0x10] ++ [0xF0, 0x80, 0xF0, 0x10, 0xF0] ++
  [0xF0, 0x80, 0xF0, 0x90, 0xF0] ++ [0xF0, 0x10, 0x20, 0x40, 0x40]

/-- The default font, digits 8 to F (10_state.md R36). -/
def defaultFontHigh : List Byte :=
  [0xF0, 0x90, 0xF0, 0x90, 0xF0] ++ [0xF0, 0x90, 0xF0, 0x10, 0xF0] ++
  [0xF0, 0x90, 0xF0, 0x90, 0x90] ++ [0xE0, 0x90, 0xE0, 0x90, 0xE0] ++
  [0xF0, 0x80, 0x80, 0x80, 0xF0] ++ [0xE0, 0x90, 0x90, 0x90, 0xE0] ++
  [0xF0, 0x80, 0xF0, 0x80, 0xF0] ++ [0xF0, 0x80, 0xF0, 0x80, 0x80]

/-- The default FONT of R8 and R36 (PRESUMED: the spec has it from general knowledge, D2; log 2). -/
def defaultFont : Vector Byte 80 := ⟨(defaultFontLow ++ defaultFontHigh).toArray, rfl⟩

/-- The parameters' defaults as 00_scope.md R8 lists them (log 1, log 2). -/
def defaultConfig : Config where
  fontBase := 0x050
  font := defaultFont
  fx1eSetsVF := false
  onIllegal := .halt
  keySelect := .lowest

/-- PROG_BASE: where the ROM is placed and where execution starts (R7; 70_reset_and_hazards.md R263). -/
def progBase : Addr := 0x200

/-- ROM_MAX: the largest ROM image, 4096 − 0x200 bytes (R7, 60_exceptions.md R230). -/
def romMax : Nat := 3584

/-- The memory image reset builds, in the order of 70_reset_and_hazards.md R262: every byte 0x00, the font at FONT_BASE, the ROM
from 0x200 upward. -/
def bootMemory (cfg : Config) (rom : List Byte) : Memory :=
  (Memory.writeBytes [] cfg.fontBase.val cfg.font.toList).writeBytes progBase.toNat rom

end Sys2Proof.Machine
end

