-- ==== Sys2Proof/Machine/State.lean ====
section
/-! DEFINITION. The state of the machine as plain data: the tuple at the head of 10_state.md, then the model's own fields (log 1, 3, 5, 6). -/

namespace Sys2Proof.Machine

/-- MODE (10_state.md R37), a run state that no instruction reads. -/
inductive Mode where
  /-- 0: the next step fetches and executes. -/
  | running
  /-- 1: the last step was an FX0A that found no key pressed. -/
  | waitingForKey
  /-- 2: a fatal exception was raised; steps have no effect until reset. -/
  | halted
  deriving DecidableEq, Repr

/-- The framebuffer: 32 rows of 64 one-bit cells; bit c of row r is FB[r][c] (R33, log 19). -/
abbrev Screen := Vector (BitVec 64) 32

/-- A pulse or event the block raises toward the host. -/
inductive Event where
  /-- `unsupported_evt(nnn)`, raised by 0NNN (60_exceptions.md R229). -/
  | unsupported (nnn : Addr)
  /-- The event of an illegal word under ON_ILLEGAL = skip (60_exceptions.md R234). -/
  | illegal (w : Word)
  /-- `fb_changed`, raised by 00E0 and DXYN (10_state.md R43). -/
  | fbChanged
  deriving DecidableEq, Repr

/-- An action of the host at the block's inputs (10_state.md R40 to R42, R45). -/
inductive Input where
  /-- A `step_en` pulse. -/
  | stepEn
  /-- A `tick60` pulse. -/
  | tick60
  /-- `key_wr(k, b)`. -/
  | keyWr (k : Key) (b : Bool)
  /-- `rst` with the ROM image the loader supplies. -/
  | rst (rom : List Byte)
  deriving DecidableEq, Repr

/-- The fatal exceptions of 60_exceptions.md R220 with the information each records. A w is the word of the faulting
instruction. -/
inductive Exc where
  | fetchOutOfBounds
  | illegalOpcode (w : Word)
  | stackOverflow (w : Word)
  | stackUnderflow (w : Word)
  | memoryOutOfBounds (w : Word) (addr : BitVec 13)
  deriving DecidableEq, Repr

structure State where
  /-- V0 .. VF (R20). -/
  V : Vector Byte 16
  /-- The address register (R23). -/
  I : Addr
  /-- The program counter: between steps, the address of the next instruction (R24). -/
  pc : Addr
  /-- The call stack's entries; those at SP and above are never read (R28). -/
  STACK : Vector Addr 16
  /-- The number of entries in use, 0 to 16 (R28). -/
  SP : Fin 17
  /-- The delay timer (R31). -/
  DT : Byte
  /-- The sound timer (R32). -/
  ST : Byte
  /-- The framebuffer (R33). -/
  FB : Screen
  /-- The key bits, true = currently pressed (R34). -/
  KEYS : Vector Bool 16
  /-- The memory (R35). -/
  MEM : Memory
  /-- The run state (R37). -/
  MODE : Mode
  /-- The code of the last fatal exception, 0 = none since reset (60_exceptions.md R228). -/
  CAUSE : BitVec 3
  /-- The pc of the faulting step (R228). -/
  EPC : Addr
  /-- The word of the faulting instruction (R228). -/
  EINSTR : Word
  /-- The offending unwrapped address (R228). -/
  EADDR : BitVec 13
  /-- MODEL: the parameters of 00_scope.md R8; no step changes them (log 1). -/
  cfg : Config
  /-- MODEL: the host's pending actions, oldest first; none pending means step_en (log 5). -/
  inputs : List Input
  /-- MODEL: the events raised so far, oldest first (log 6). -/
  events : List Event
  /-- MODEL: how many random bytes have been drawn (log 3). -/
  draws : Nat
  deriving DecidableEq, Repr

/-- What stops the machine for good. No instruction raises one: every exception of an instruction is a next state with MODE =
Halted (60_exceptions.md R227). -/
inductive Fault where
  /-- RomTooLarge: a reset was given more than 3584 ROM bytes; "the engine then has no defined state and does not run"
  (70_reset_and_hazards.md R265). Raised by the reset action only. Safe: the machine stops where the spec gives no state. -/
  | romTooLarge
  deriving DecidableEq, Repr

/-- Why a step has no meaning. -/
inductive Refusal where
  /-- An instruction without a meaning, by its mnemonic. Raised by no arm: every instruction is modelled. Safe. -/
  | notModelled (mnemonic : String)
  deriving DecidableEq, Repr

/-- The state right after a reset with the ROM given (10_state.md R39; 70_reset_and_hazards.md R260, R262 to R264). The entries
of STACK are unspecified there and zero here (log 7). -/
def State.boot (cfg : Config) (rom : List Byte) : State where
  V := Vector.replicate 16 0
  I := 0
  pc := progBase
  STACK := Vector.replicate 16 0
  SP := 0
  DT := 0
  ST := 0
  FB := Vector.replicate 32 0
  KEYS := Vector.replicate 16 false
  MEM := bootMemory cfg rom
  MODE := .running
  CAUSE := 0
  EPC := 0
  EINSTR := 0
  EADDR := 0
  cfg := cfg
  inputs := []
  events := []
  draws := 0

/-- The machine right after reset, with R8's default parameters and the empty ROM (log 1, log 17). -/
def State.reset : State := State.boot defaultConfig []

end Sys2Proof.Machine
end

