-- ==== Sys2Proof/Machine/Operands.lean ====
section
/-! DEFINITION. The operand forms of 30_encoding.md R93 and 42_index_memory.md R160: what an instruction reads from the state before it (41_register_alu.md R153). -/

namespace Sys2Proof.Machine

/-- V[i], any of the sixteen registers (10_state.md R20). -/
def readV (s : State) (i : RegIdx) : Byte := s.V[i]

/-- V[0] .. V[x], the x + 1 registers FX55 stores (42_index_memory.md R165). -/
def registersThrough (s : State) (x : RegIdx) : List Byte := s.V.toList.take (x.val + 1)

/-- The effective address I + k, not reduced modulo 4096 (42_index_memory.md R160). -/
def effectiveAddr (s : State) (k : Nat) : Nat := s.I.toNat + k

/-- The bounds check of 20_memory.md R67: the highest address I + kmax lies beyond 0xFFF. -/
def beyondMemory (s : State) (kmax : Nat) : Bool := effectiveAddr s kmax > 0xFFF

/-- The byte at I + k; the caller has made the bounds check. -/
def readAtI (s : State) (k : Nat) : Byte := s.MEM.read (effectiveAddr s k)

/-- V AND 0x0F: the digit of FX29 (R163, D9) and the key number of EX9E and EXA1 (44_keypad_timers.md R200, D10). -/
def lowNibble (v : Byte) : Fin 16 := (v.extractLsb' 0 4).toFin

/-- KEYS[k] (10_state.md R34). -/
def keyDown (s : State) (k : Key) : Bool := s.KEYS[k]

/-- The set P of pressed keys of 44_keypad_timers.md R204, in rising order. -/
def pressedKeys (s : State) : List Key := (List.finRange 16).filter (keyDown s)

/-- KEY_SELECT on the pressed keys `k :: ks`, listed in rising order (00_scope.md R8, R204): the lowest by default, otherwise the
key the free choice names if it is one of them (log 4). -/
def selectKey (sel : KeySelect) (k : Key) (ks : List Key) : Key :=
  match sel with
  | .lowest => k
  | .other p => if Config.keyChoice p (k :: ks) ∈ k :: ks then Config.keyChoice p (k :: ks) else k

/-- The address of the glyph of a digit, `FONT_BASE + 5 * d` (42_index_memory.md R163); the parameter, not memory, decides it. -/
def glyphAddr (cfg : Config) (d : Fin 16) : Addr := BitVec.ofNat 12 (cfg.fontBase.val + 5 * d.val)

/-- The hundreds, tens and ones digits of a byte, one per byte (42_index_memory.md R164). -/
def bcdDigits (v : Byte) : List Byte :=
  [BitVec.ofNat 8 (v.toNat / 100), BitVec.ofNat 8 (v.toNat / 10 % 10), BitVec.ofNat 8 (v.toNat % 10)]

end Sys2Proof.Machine
end

