-- ==== Sys2Proof/Machine/Ops.lean ====
section
/-! DEFINITION. The shared operations over the state: register, pc, stack and memory writes, events, and the one entry into a fatal exception. There is no return from an exception (60_exceptions.md R233): the one way out of the halt is the reset action of Machine/Agents.lean. -/

namespace Sys2Proof.Machine

/-- `V[i] <- v` (10_state.md R20: no register is hardwired). -/
def writeV (s : State) (i : RegIdx) (v : Byte) : State := { s with V := s.V.set i v }

/-- `V[0xF] <- flag`, the full register (R22). -/
def writeVF (s : State) (flag : Bool) : State := writeV s 15 (flagByte flag)

/-- A result to V[x] and then a flag to VF, so that x = 15 leaves the flag (41_register_alu.md R153, D8; log 12). -/
def writeResultAndFlag (s : State) (x : RegIdx) (result : Byte) (flag : Bool) : State :=
  writeVF (writeV s x result) flag

/-- `pc <- t` by an instruction that completes; point 5 of 30_encoding.md R94 leaves MODE at Running (log 18). -/
def goto (s : State) (t : Addr) : State := { s with pc := t, MODE := .running }

/-- `pc <- pc + 2`, modulo 4096 (10_state.md R25, D6; log 13). -/
def advance (s : State) : State := goto s (s.pc + 2)

/-- A skip: `pc <- pc + 4` if taken, else `pc <- pc + 2` (40_control_flow.md R120). -/
def skipIf (s : State) (taken : Bool) : State := if taken then goto s (s.pc + 4) else advance s

/-- Reports an event to the host (00_scope.md R10 `signal`, log 6). -/
def emit (s : State) (e : Event) : State := { s with events := s.events ++ [e] }

/-- Push(v) of 10_state.md R29; none when 16 entries are in use. -/
def push (s : State) (v : Addr) : Option State :=
  if h : s.SP.val < 16 then
    some { s with STACK := s.STACK.set s.SP.val v h, SP := ⟨s.SP.val + 1, by omega⟩ }
  else none

/-- Pop() of 10_state.md R30, the entry pushed most recently; none when the stack is empty. -/
def pop (s : State) : Option (Addr × State) :=
  if h : 0 < s.SP.val then
    some (s.STACK[s.SP.val - 1], { s with SP := ⟨s.SP.val - 1, by omega⟩ })
  else none

/-- Stores bytes at I, I + 1, ... (20_memory.md R64); the caller has made the bounds check. -/
def storeAtI (s : State) (bytes : List Byte) : State :=
  { s with MEM := s.MEM.writeBytes (effectiveAddr s 0) bytes }

/-- V[i] ← the byte at I + i for every i from 0 to x (42_index_memory.md R166); the caller has made the bounds check. -/
def loadThrough (s : State) (x : RegIdx) : State :=
  { s with V := (List.finRange 16).foldl (fun v i => if i ≤ x then v.set i (readAtI s i.val) else v) s.V }

/-- The code of a fatal exception (60_exceptions.md R220). -/
def causeCode : Exc → BitVec 3
  | .fetchOutOfBounds => 1
  | .illegalOpcode _ => 2
  | .stackOverflow _ => 3
  | .stackUnderflow _ => 4
  | .memoryOutOfBounds _ _ => 5

/-- EINSTR after a fatal exception: the fetched word for codes 2 to 5, unchanged for code 1 (R228). -/
def excInstr (s : State) : Exc → Word
  | .fetchOutOfBounds => s.EINSTR
  | .illegalOpcode w => w
  | .stackOverflow w => w
  | .stackUnderflow w => w
  | .memoryOutOfBounds w _ => w

/-- EADDR after a fatal exception: 0x1000 for code 1, I + kmax for code 5, unchanged otherwise (R228). -/
def excAddr (s : State) : Exc → BitVec 13
  | .fetchOutOfBounds => 0x1000
  | .illegalOpcode _ => s.EADDR
  | .stackOverflow _ => s.EADDR
  | .stackUnderflow _ => s.EADDR
  | .memoryOutOfBounds _ a => a

/-- Taking a fatal exception: the halt. Only MODE and the fault registers change (60_exceptions.md R226 to R228, D15, D16;
log 10). -/
def takeException (s : State) (e : Exc) : State :=
  { s with MODE := .halted, CAUSE := causeCode e, EPC := s.pc, EINSTR := excInstr s e, EADDR := excAddr s e }

/-- MemoryOutOfBounds(addr = I + kmax) of the instruction whose word is w (20_memory.md R67). -/
def dataOutOfBounds (s : State) (w : Word) (kmax : Nat) : State :=
  takeException s (.memoryOutOfBounds w (BitVec.ofNat 13 (effectiveAddr s kmax)))

end Sys2Proof.Machine
end

