-- ==== Sys2Proof/Machine/ControlFlow.lean ====
section
/-! DEFINITION. Control flow: 00EE, 0NNN, 1NNN, 2NNN, 3XNN, 4XNN, 5XY0, 9XY0, BNNN (40_control_flow.md). A fatal exception records the instruction's own word, which is its encoding (log 11). -/

namespace Sys2Proof.Machine

/-- The outcome of an instruction, as the host's interface names it. -/
abbrev Result := Host.Outcome State Fault Refusal

/-- 00EE (R121): StackUnderflow on an empty stack, else `pc <- Pop()`. -/
def execRet (s : State) : Result :=
  match pop s with
  | none => .next (takeException s (.stackUnderflow (encode .ret)))
  | some (t, s') => .next (goto s' t)

/-- 0NNN (R122): the event, and nothing else but the advance. -/
def execSys (nnn : Addr) (s : State) : Result := .next (advance (emit s (.unsupported nnn)))

/-- 1NNN (R123). -/
def execJp (nnn : Addr) (s : State) : Result := .next (goto s nnn)

/-- 2NNN (R124): StackOverflow on a full stack, else push pc + 2 and jump. -/
def execCall (nnn : Addr) (s : State) : Result :=
  match push s (s.pc + 2) with
  | none => .next (takeException s (.stackOverflow (encode (.call nnn))))
  | some s' => .next (goto s' nnn)

/-- 3XNN (R125). -/
def execSeVxNn (x : RegIdx) (nn : Byte) (s : State) : Result := .next (skipIf s (readV s x == nn))

/-- 4XNN (R126). -/
def execSneVxNn (x : RegIdx) (nn : Byte) (s : State) : Result := .next (skipIf s (readV s x != nn))

/-- 5XY0 (R127). -/
def execSeVxVy (x y : RegIdx) (s : State) : Result := .next (skipIf s (readV s x == readV s y))

/-- 9XY0 (R128). -/
def execSneVxVy (x y : RegIdx) (s : State) : Result := .next (skipIf s (readV s x != readV s y))

/-- BNNN (R129): `pc <- (nnn + V[0]) mod 4096`. -/
def execJpV0Nnn (nnn : Addr) (s : State) : Result := .next (goto s (nnn + (readV s 0).setWidth 12))

end Sys2Proof.Machine
end

