-- ==== Sys2Proof/Machine/Sprite.lean ====
section
/-! DEFINITION. The XOR-blit sprite engine: cells of the framebuffer and the two loops of 43_display.md R182. -/

namespace Sys2Proof.Machine

/-- FB[row][col] (10_state.md R33). -/
def pixel (fb : Screen) (row : Fin 32) (col : Fin 64) : Bool := fb[row].getLsbD col.val

/-- `FB[row][col] <- FB[row][col] XOR 1`. -/
def flipPixel (fb : Screen) (row : Fin 32) (col : Fin 64) : Screen :=
  fb.set row (fb[row] ^^^ BitVec.twoPow 64 col.val)

/-- All 2048 cells off (R181). -/
def blankScreen : Screen := Vector.replicate 32 0

/-- A framebuffer and the collision found so far. -/
abbrev Blit := Screen × Bool

/-- One sprite pixel that is 1, at screen row and column: a cell that was on collides, and the cell is flipped. -/
def blitPixel (acc : Blit) (row : Fin 32) (col : Fin 64) : Blit :=
  (flipPixel acc.1 row col, acc.2 || pixel acc.1 row col)

/-- Sprite pixel c of a row byte: bit 7 − c, so that bit 7 is the leftmost (R180, D14; log 15). -/
def spriteBit (b : Byte) (c : Nat) : Bool := b.getLsbD (7 - c)

/-- The inner loop of R182: the 8 pixels of a row byte from column x0, wrapping modulo 64. -/
def blitRow (acc : Blit) (row : Fin 32) (x0 : Nat) (b : Byte) : Blit :=
  (List.range 8).foldl
    (fun acc c => if spriteBit b c then blitPixel acc row (Fin.ofNat 64 (x0 + c)) else acc) acc

/-- The outer loop of R182: the n sprite rows whose bytes `bytes r` gives, from row y0, wrapping modulo 32. -/
def blitSprite (fb : Screen) (x0 y0 n : Nat) (bytes : Nat → Byte) : Blit :=
  (List.range n).foldl (fun acc r => blitRow acc (Fin.ofNat 32 (y0 + r)) x0 (bytes r)) (fb, false)

end Sys2Proof.Machine
end

