-- ==== Sys2Proof/Machine/Display.lean ====
section
/-! DEFINITION. The display instructions 00E0 and DXYN (43_display.md). Each raises fb_changed when it completes (10_state.md R43). -/

namespace Sys2Proof.Machine

/-- 00E0 (R181): VF is not written. -/
def execCls (s : State) : Result := .next (advance (emit { s with FB := blankScreen } .fbChanged))

/-- The framebuffer and the collision of a DXYN at state s: n rows from I, at column Vx mod 64 and row Vy mod 32 (R182). -/
def drawn (s : State) (x y : RegIdx) (n : BitVec 4) : Blit :=
  blitSprite s.FB ((readV s x).toNat % 64) ((readV s y).toNat % 32) n.toNat (readAtI s)

/-- DXYN (R182): n = 0 draws nothing and reads no memory (D26; log 15); VF receives the collision last (R153). -/
def execDrwVxVyN (x y : RegIdx) (n : BitVec 4) (s : State) : Result :=
  if n.toNat > 0 && beyondMemory s (n.toNat - 1) then
    .next (dataOutOfBounds s (encode (.drwVxVyN x y n)) (n.toNat - 1))
  else
    .next (advance (emit (writeVF { s with FB := (drawn s x y n).1 } (drawn s x y n).2) .fbChanged))

end Sys2Proof.Machine
end

