-- ==== Sys2Proof/Machine/IndexMemory.lean ====
section
/-! DEFINITION. The address register and memory: ANNN, FX1E, FX29, FX33, FX55, FX65 (42_index_memory.md). The three that access memory check the highest address before any transfer and leave I unchanged (R160; log 22). -/

namespace Sys2Proof.Machine

/-- ANNN (R161). -/
def execLdINnn (nnn : Addr) (s : State) : Result := .next (advance { s with I := nnn })

/-- FX1E (R162): I wraps silently; VF receives the overflow flag, last, only under FX1E_SETS_VF. -/
def execAddIVx (x : RegIdx) (s : State) : Result :=
  let s' := { s with I := s.I + (readV s x).setWidth 12 }
  .next (advance (if s.cfg.fx1eSetsVF then writeVF s' (indexOverflow s.I (readV s x)) else s'))

/-- FX29 (R163): no memory is accessed. -/
def execLdFVx (x : RegIdx) (s : State) : Result :=
  .next (advance { s with I := glyphAddr s.cfg (lowNibble (readV s x)) })

/-- FX33 (R164). -/
def execLdBVx (x : RegIdx) (s : State) : Result :=
  if beyondMemory s 2 then .next (dataOutOfBounds s (encode (.ldBVx x)) 2)
  else .next (advance (storeAtI s (bcdDigits (readV s x))))

/-- FX55 (R165). -/
def execLdMemVx (x : RegIdx) (s : State) : Result :=
  if beyondMemory s x.val then .next (dataOutOfBounds s (encode (.ldMemVx x)) x.val)
  else .next (advance (storeAtI s (registersThrough s x)))

/-- FX65 (R166). -/
def execLdVxMem (x : RegIdx) (s : State) : Result :=
  if beyondMemory s x.val then .next (dataOutOfBounds s (encode (.ldVxMem x)) x.val)
  else .next (advance (loadThrough s x))

end Sys2Proof.Machine
end

