-- ==== Sys2Proof/Machine/KeypadTimers.lean ====
section
/-! DEFINITION. Keypad and timer instructions: EX9E, EXA1, FX07, FX0A, FX15, FX18 (44_keypad_timers.md). None changes KEYS (R200). -/

namespace Sys2Proof.Machine

/-- EX9E (R201). -/
def execSkpVx (x : RegIdx) (s : State) : Result := .next (skipIf s (keyDown s (lowNibble (readV s x))))

/-- EXA1 (R202). -/
def execSknpVx (x : RegIdx) (s : State) : Result := .next (skipIf s (!keyDown s (lowNibble (readV s x))))

/-- FX07 (R203). -/
def execLdVxDt (x : RegIdx) (s : State) : Result := .next (advance (writeV s x s.DT))

/-- FX0A (R204): with no key down only MODE changes, and pc still addresses the FX0A (R207). -/
def execLdVxK (x : RegIdx) (s : State) : Result :=
  match pressedKeys s with
  | [] => .next { s with MODE := .waitingForKey }
  | k :: ks => .next (advance (writeV s x (BitVec.ofNat 8 (selectKey s.cfg.keySelect k ks).val)))

/-- FX15 (R205). -/
def execLdDtVx (x : RegIdx) (s : State) : Result := .next (advance { s with DT := readV s x })

/-- FX18 (R206). -/
def execLdStVx (x : RegIdx) (s : State) : Result := .next (advance { s with ST := readV s x })

end Sys2Proof.Machine
end

