-- ==== Sys2Proof/Machine/RegisterAlu.lean ====
section
/-! DEFINITION. Register load, arithmetic, logic, shift and random: 6XNN, 7XNN, 8XY0 to 8XY7, 8XYE, CXNN (41_register_alu.md). None raises an exception. -/

namespace Sys2Proof.Machine

/-- 6XNN (R141). -/
def execLdVxNn (x : RegIdx) (nn : Byte) (s : State) : Result := .next (advance (writeV s x nn))

/-- 7XNN (R142): no flag. -/
def execAddVxNn (x : RegIdx) (nn : Byte) (s : State) : Result := .next (advance (writeV s x (readV s x + nn)))

/-- 8XY0 (R143). -/
def execLdVxVy (x y : RegIdx) (s : State) : Result := .next (advance (writeV s x (readV s y)))

/-- 8XY1 (R144): VF unchanged (D25; log 22). -/
def execOrVxVy (x y : RegIdx) (s : State) : Result := .next (advance (writeV s x (readV s x ||| readV s y)))

/-- 8XY2 (R145): VF unchanged (D25; log 22). -/
def execAndVxVy (x y : RegIdx) (s : State) : Result := .next (advance (writeV s x (readV s x &&& readV s y)))

/-- 8XY3 (R146): VF unchanged (D25; log 22). -/
def execXorVxVy (x y : RegIdx) (s : State) : Result := .next (advance (writeV s x (readV s x ^^^ readV s y)))

/-- 8XY4 (R147). -/
def execAddVxVy (x y : RegIdx) (s : State) : Result :=
  .next (advance (writeResultAndFlag s x (readV s x + readV s y) (addCarry (readV s x) (readV s y))))

/-- 8XY5 (R148). -/
def execSubVxVy (x y : RegIdx) (s : State) : Result :=
  .next (advance (writeResultAndFlag s x (readV s x - readV s y) (noBorrow (readV s x) (readV s y))))

/-- 8XY6 (R149): in place; y selects nothing (30_encoding.md R100). -/
def execShrVx (x _y : RegIdx) (s : State) : Result :=
  .next (advance (writeResultAndFlag s x (readV s x >>> 1) (shiftedOutRight (readV s x))))

/-- 8XY7 (R150): the result goes to Vx (C7). -/
def execSubnVxVy (x y : RegIdx) (s : State) : Result :=
  .next (advance (writeResultAndFlag s x (readV s y - readV s x) (noBorrow (readV s y) (readV s x))))

/-- 8XYE (R151): in place; y selects nothing (30_encoding.md R100). -/
def execShlVx (x _y : RegIdx) (s : State) : Result :=
  .next (advance (writeResultAndFlag s x (readV s x <<< 1) (shiftedOutLeft (readV s x))))

/-- CXNN (R152): a fresh free byte AND nn (log 3). -/
def execRndVxNn (x : RegIdx) (nn : Byte) (s : State) : Result :=
  .next (advance { writeV s x (Config.rand s.draws &&& nn) with draws := s.draws + 1 })

end Sys2Proof.Machine
end

