-- ==== Sys2Proof/Machine/Interpreter.lean ====
section
/-! DEFINITION. The Interpreter's step: fetch, decode, execute (30_encoding.md R94). -/

namespace Sys2Proof.Machine

/-- `MEM[pc] || MEM[pc+1]`, the high byte at the lower address (20_memory.md R61); pc is not 0xFFF. -/
def fetchWord (s : State) : Word := s.MEM.read s.pc.toNat ++ s.MEM.read (s.pc.toNat + 1)

/-- A word that matches no row: the halt, or under ON_ILLEGAL = skip an event and the advance (60_exceptions.md R222, R234). -/
def illegalWord (s : State) (w : Word) : Result :=
  match s.cfg.onIllegal with
  | .halt => .next (takeException s (.illegalOpcode w))
  | .skip => .next (advance (emit s (.illegal w)))

/-- One step of the Interpreter, points 0 to 5 of R94 in order. -/
def interpreterStep (s : State) : Result :=
  if s.MODE = .halted then .next s
  else if s.pc = 0xFFF then .next (takeException s .fetchOutOfBounds)
  else
    match decodeWord (fetchWord s) with
    | none => illegalWord s (fetchWord s)
    | some i => exec i s

end Sys2Proof.Machine
end

