-- ==== Sys2Proof/Machine/Agents.lean ====
section
/-! DEFINITION. The agents beside the Interpreter (00_scope.md R6): the tick, the key write and the reset, and the block's level output. All act whatever MODE is (60_exceptions.md R237, R242; 70_reset_and_hazards.md R260). -/

namespace Sys2Proof.Machine

/-- A timer after one tick: one less, and never below 0 (60_exceptions.md R237). -/
def countDown (t : Byte) : Byte := if t = 0 then 0 else t - 1

/-- The tick (R237). -/
def tick (s : State) : State := { s with DT := countDown s.DT, ST := countDown s.ST }

/-- `key_wr(k, b)`: `KEYS[k] <- b` (R242). -/
def keyWrite (s : State) (k : Key) (b : Bool) : State := { s with KEYS := s.KEYS.set k b }

/-- The output `sound_active = (ST > 0)` (10_state.md R44, 60_exceptions.md R238). -/
def soundActive (s : State) : Bool := s.ST.toNat > 0

/-- Reset with a ROM: the whole state anew (70_reset_and_hazards.md R260), or RomTooLarge (R265). What the host has yet to do, the
events it has been told and the count of random draws are no state of the block and stay (log 3, 5, 6, 16). -/
def resetAction (s : State) (rom : List Byte) : Result :=
  if rom.length > romMax then .fault .romTooLarge
  else .next { State.boot s.cfg rom with inputs := s.inputs, events := s.events, draws := s.draws }

/-- One action of the host's at the inputs (10_state.md R40 to R42, R45). -/
def perform (s : State) : Input → Result
  | .stepEn => interpreterStep s
  | .tick60 => .next (tick s)
  | .keyWr k b => .next (keyWrite s k b)
  | .rst rom => resetAction s rom

end Sys2Proof.Machine
end

