-- ==== Sys2Proof/Machine/Step.lean ====
section
/-! DEFINITION. One action of the machine: the oldest pending action of the host's, or an Interpreter step when none is pending (20_memory.md R70; log 5). -/

namespace Sys2Proof.Machine

/-- The machine's step: the agents' actions form one total order, which `inputs` gives (R70). -/
def step (s : State) : Host.Outcome State Fault Refusal :=
  match s.inputs with
  | [] => interpreterStep s
  | a :: rest => perform { s with inputs := rest } a

/-- The state in which the very next step runs the instruction whose word is w: its two bytes at pc, high byte first, no host
action pending, and, where the Interpreter could not fetch at all, MODE = Running and pc = 0x200 (log 21). -/
def State.withFetchWord (s : State) (nbits w : Nat) : State :=
  let word := BitVec.ofNat 16 (w % 2 ^ nbits)
  let at_ := if s.pc = 0xFFF then progBase else s.pc
  { s with
    pc := at_
    MODE := if s.MODE = .halted then .running else s.MODE
    MEM := s.MEM.writeBytes at_.toNat [word.extractLsb' 8 8, word.extractLsb' 0 8]
    inputs := [] }

end Sys2Proof.Machine
end

