-- ==== Sys2Proof/Safety.lean ====
section
/-! DEFINITION. The terms the statements use: what a safe state is, what stays unchanged (frames), the machine's invariant, and the tables of 10_state.md (R21, R27) and 43_display.md (R180) as predicates. -/

namespace Sys2Proof.Machine

/-! ## Safe states -/

/-- No fatal exception has stopped the engine (60_exceptions.md R227). -/
def Safe (s : State) : Prop := s.MODE ≠ .halted

/-- A run of n actions from s is safe when it ends in a safe state: no action of it left the machine without a state, and
none halted it for good. -/
def SafeRun (n : Nat) (s : State) : Prop := ∃ t : State, Sys2Proof.core.run n s = .next t ∧ Safe t

/-! ## Frames: what a step leaves unchanged from s to t -/

def KeepsRegisters (s t : State) : Prop := ∀ i, readV t i = readV s i

def KeepsRegistersBut (x : RegIdx) (s t : State) : Prop := ∀ i, i ≠ x → readV t i = readV s i

/-- Every byte of memory reads as before. -/
def KeepsMemory (s t : State) : Prop := ∀ a : Nat, t.MEM.read a = s.MEM.read a

/-- Every byte outside the n bytes from address a reads as before. -/
def KeepsMemoryOutside (a n : Nat) (s t : State) : Prop :=
  ∀ b : Nat, b < a ∨ a + n ≤ b → t.MEM.read b = s.MEM.read b

def KeepsScreen (s t : State) : Prop := ∀ r c, pixel t.FB r c = pixel s.FB r c

def KeepsStack (s t : State) : Prop := t.SP = s.SP ∧ t.STACK = s.STACK

def KeepsTimers (s t : State) : Prop := t.DT = s.DT ∧ t.ST = s.ST

def KeepsKeys (s t : State) : Prop := ∀ k, keyDown t k = keyDown s k

def KeepsFaultRegisters (s t : State) : Prop :=
  t.CAUSE = s.CAUSE ∧ t.EPC = s.EPC ∧ t.EINSTR = s.EINSTR ∧ t.EADDR = s.EADDR

/-- No memory, framebuffer cell, stack entry, timer or key is touched (the head of 41_register_alu.md). -/
def KeepsDevices (s t : State) : Prop :=
  KeepsMemory s t ∧ KeepsScreen s t ∧ KeepsStack s t ∧ KeepsTimers s t ∧ KeepsKeys s t

/-- Nothing but V registers, pc and MODE differs, and every byte of memory reads as before. -/
def OnlyRegisters (s t : State) : Prop :=
  t = { s with V := t.V, pc := t.pc, MODE := t.MODE } ∧ KeepsMemory s t

/-- Nothing but memory, pc and MODE differs. -/
def OnlyMemory (s t : State) : Prop := t = { s with MEM := t.MEM, pc := t.pc, MODE := t.MODE }

/-- Nothing but pc and MODE differs, and every byte of memory reads as before. -/
def OnlyControl (s t : State) : Prop := t = { s with pc := t.pc, MODE := t.MODE } ∧ KeepsMemory s t

/-- Only MODE and the fault registers differ (60_exceptions.md R226). -/
def OnlyHalt (s t : State) : Prop :=
  t = { s with MODE := .halted, CAUSE := t.CAUSE, EPC := t.EPC, EINSTR := t.EINSTR, EADDR := t.EADDR }

/-! ## The program counter -/

/-- pc moves up by k where the 12 bits hold the sum. -/
def MovesBy (k : Nat) (s t : State) : Prop := s.pc.toNat + k < 4096 → t.pc.toNat = s.pc.toNat + k

/-- pc moves up by k modulo 4096 (10_state.md R25, D6) and MODE is Running. -/
def GoesOn (k : Nat) (s t : State) : Prop := t.pc.toNat = (s.pc.toNat + k) % 4096 ∧ t.MODE = .running

/-- The pc an instruction leaves, row by row as in 10_state.md R27; pc is unchanged where it raises a fatal exception. -/
def pcAfter (s : State) : Instr → Nat
  | .ret => if s.SP.val = 0 then s.pc.toNat else (s.STACK[s.SP.val - 1]).toNat
  | .jp nnn => nnn.toNat
  | .call nnn => if s.SP.val = 16 then s.pc.toNat else nnn.toNat
  | .jpV0Nnn nnn => (nnn.toNat + (readV s 0).toNat) % 4096
  | .seVxNn x nn => (s.pc.toNat + if readV s x = nn then 4 else 2) % 4096
  | .sneVxNn x nn => (s.pc.toNat + if readV s x ≠ nn then 4 else 2) % 4096
  | .seVxVy x y => (s.pc.toNat + if readV s x = readV s y then 4 else 2) % 4096
  | .sneVxVy x y => (s.pc.toNat + if readV s x ≠ readV s y then 4 else 2) % 4096
  | .skpVx x => (s.pc.toNat + if keyDown s (lowNibble (readV s x)) then 4 else 2) % 4096
  | .sknpVx x => (s.pc.toNat + if keyDown s (lowNibble (readV s x)) then 2 else 4) % 4096
  | .ldVxK _ => if ∃ k, keyDown s k = true then (s.pc.toNat + 2) % 4096 else s.pc.toNat
  | .drwVxVyN _ _ n =>
    if n.toNat > 0 ∧ s.I.toNat + n.toNat - 1 > 0xFFF then s.pc.toNat else (s.pc.toNat + 2) % 4096
  | .ldBVx _ => if s.I.toNat + 2 > 0xFFF then s.pc.toNat else (s.pc.toNat + 2) % 4096
  | .ldMemVx x => if s.I.toNat + x.val > 0xFFF then s.pc.toNat else (s.pc.toNat + 2) % 4096
  | .ldVxMem x => if s.I.toNat + x.val > 0xFFF then s.pc.toNat else (s.pc.toNat + 2) % 4096
  | _ => (s.pc.toNat + 2) % 4096

/-! ## Who may write what -/

/-- The column "writes" of the table of 10_state.md R21: may the instruction write register j? -/
def mayWriteV (cfg : Config) (j : RegIdx) : Instr → Prop
  | .ldVxNn x _ | .addVxNn x _ | .rndVxNn x _ | .ldVxVy x _ | .orVxVy x _ | .andVxVy x _ | .xorVxVy x _ => j = x
  | .ldVxDt x | .ldVxK x => j = x
  | .addVxVy x _ | .subVxVy x _ | .subnVxVy x _ | .shrVx x _ | .shlVx x _ => j = x ∨ j = 15
  | .drwVxVyN _ _ _ => j = 15
  | .addIVx _ => cfg.fx1eSetsVF = true ∧ j = 15
  | .ldVxMem x => j ≤ x
  | _ => False

/-- The instructions that may write I (10_state.md R23). -/
def mayWriteI : Instr → Prop
  | .ldINnn _ | .addIVx _ | .ldFVx _ => True
  | _ => False

/-- The instructions that may write memory (20_memory.md R64). -/
def mayWriteMemory : Instr → Prop
  | .ldBVx _ | .ldMemVx _ => True
  | _ => False

/-- The instructions that may write the framebuffer (10_state.md R33). -/
def mayWriteScreen : Instr → Prop
  | .cls | .drwVxVyN _ _ _ => True
  | _ => False

/-- The instructions that may write the call stack (10_state.md R28). -/
def mayWriteStack : Instr → Prop
  | .ret | .call _ => True
  | _ => False

/-- The instructions that may raise an event (10_state.md R43, 60_exceptions.md R229). -/
def mayRaiseEvent : Instr → Prop
  | .sys _ | .cls | .drwVxVyN _ _ _ => True
  | _ => False

/-! ## The sprite engine -/

/-- A 1 pixel of the sprite of DXYN lands on the cell (row, col): sprite pixel (r, c) is bit 7 − c of the byte at I + r and lands
on row (Vy + r) mod 32, column (Vx + c) mod 64 (43_display.md R180). -/
def SpriteCovers (s : State) (x y : RegIdx) (n : BitVec 4) (row : Fin 32) (col : Fin 64) : Prop :=
  ∃ r c : Nat, r < n.toNat ∧ c < 8 ∧ row.val = ((readV s y).toNat + r) % 32 ∧ col.val = ((readV s x).toNat + c) % 64 ∧
    (readAtI s r).getLsbD (7 - c) = true

/-! ## The invariant -/

/-- What holds at reset and after every action: the memory is canonical, the fault registers say exactly what
60_exceptions.md R220 and R228 let them say, and a waiting engine addresses an FX0A (10_state.md R37). -/
structure Inv (s : State) : Prop where
  /-- The memory is in its canonical form. -/
  mem_wf : Memory.wf s.MEM
  /-- CAUSE is 0 or a code of R220's fatal exceptions. -/
  cause_legal : s.CAUSE.toNat ≤ 5
  /-- The engine is halted exactly when a cause is recorded. -/
  halted_iff : s.MODE = .halted ↔ s.CAUSE ≠ 0
  /-- EPC is the current pc while halted (R228). -/
  epc_current : s.MODE = .halted → s.EPC = s.pc
  /-- Code 1 means pc = 0xFFF and EADDR = 0x1000. -/
  fetch_cause : s.CAUSE = 1 → s.pc = 0xFFF ∧ s.EADDR = 0x1000
  /-- For codes 2 to 5 EINSTR is the word at pc. -/
  einstr_fetched : 2 ≤ s.CAUSE.toNat → s.EINSTR = fetchWord s
  /-- Codes 3 and 4 mean a full and an empty stack. -/
  stack_causes : (s.CAUSE = 3 → s.SP.val = 16) ∧ (s.CAUSE = 4 → s.SP.val = 0)
  /-- For code 5 EADDR lies beyond memory, and never above 0x100E (R225). -/
  eaddr_range : (s.CAUSE = 5 → 0xFFF < s.EADDR.toNat) ∧ s.EADDR.toNat ≤ 0x100E
  /-- Without a cause the other fault registers are still 0. -/
  no_cause : s.CAUSE = 0 → s.EPC = 0 ∧ s.EINSTR = 0 ∧ s.EADDR = 0
  /-- A waiting engine addresses an FX0A. -/
  waiting : s.MODE = .waitingForKey → s.pc ≠ 0xFFF ∧ ∃ x, decodeWord (fetchWord s) = some (.ldVxK x)

end Sys2Proof.Machine
end

