-- ==== Sys2Proof/Certificates/Slice0/Obligations.lean ====
section
/-! DEFINITION. The statements for the provers. Each docstring says which sentence of spec/ it formalises; a clause that rests on a decision D<n> of the spec's own or on a choice of the model names it and the log entry. A frame written `t = { s with … }` also keeps the model's own fields (log 1, 3, 5, 6). -/

open Sys2Proof Sys2Proof.Machine

/-! ## Encoding (30_encoding.md) -/

/-- A word of each family, written out digit by digit from R96, decodes to the instruction it stands for (sanity). -/
def Obligations.TableWordsDecode : Prop :=
  decodeWord 0x00E0#16 = some .cls ∧ decodeWord 0x0123#16 = some (.sys 0x123) ∧
  decodeWord 0x2ABC#16 = some (.call 0xABC) ∧ decodeWord 0x3A11#16 = some (.seVxNn 0xA 0x11) ∧
  decodeWord 0x8127#16 = some (.subnVxVy 1 2) ∧ decodeWord 0xD125#16 = some (.drwVxVyN 1 2 5) ∧
  decodeWord 0xE5A1#16 = some (.sknpVx 5) ∧ decodeWord 0xF265#16 = some (.ldVxMem 2) ∧ decodeWord 0x5001#16 = none

/-- R91: the fields are the contiguous unsigned slices x = w[11:8], y = w[7:4], n = w[3:0], nn = w[7:0], nnn = w[11:0]. -/
def Obligations.FieldsAreSlicesOfTheWord : Prop :=
  ∀ w : Word, (fieldX w).val = w.toNat / 256 % 16 ∧ (fieldY w).val = w.toNat / 16 % 16 ∧
    (fieldN w).toNat = w.toNat % 16 ∧ (fieldNN w).toNat = w.toNat % 256 ∧ (fieldNNN w).toNat = w.toNat % 4096

/-- R95 with the masks and values of R96: a word decodes to a row's instruction, with the row's fields, exactly when
`word AND mask = value`, for all 35 rows; 00E0 and 00EE are taken out of 0NNN. -/
def Obligations.WordsMatchByMaskAndValue : Prop :=
  ∀ w : Word,
    (decodeWord w = some .cls ↔ w &&& 0xFFFF = 0x00E0) ∧ (decodeWord w = some .ret ↔ w &&& 0xFFFF = 0x00EE) ∧
    (decodeWord w = some (.sys (fieldNNN w)) ↔ w &&& 0xF000 = 0x0000 ∧ w ≠ 0x00E0 ∧ w ≠ 0x00EE) ∧
    (decodeWord w = some (.jp (fieldNNN w)) ↔ w &&& 0xF000 = 0x1000) ∧
    (decodeWord w = some (.call (fieldNNN w)) ↔ w &&& 0xF000 = 0x2000) ∧
    (decodeWord w = some (.seVxNn (fieldX w) (fieldNN w)) ↔ w &&& 0xF000 = 0x3000) ∧
    (decodeWord w = some (.sneVxNn (fieldX w) (fieldNN w)) ↔ w &&& 0xF000 = 0x4000) ∧
    (decodeWord w = some (.seVxVy (fieldX w) (fieldY w)) ↔ w &&& 0xF00F = 0x5000) ∧
    (decodeWord w = some (.ldVxNn (fieldX w) (fieldNN w)) ↔ w &&& 0xF000 = 0x6000) ∧
    (decodeWord w = some (.addVxNn (fieldX w) (fieldNN w)) ↔ w &&& 0xF000 = 0x7000) ∧
    (decodeWord w = some (.ldVxVy (fieldX w) (fieldY w)) ↔ w &&& 0xF00F = 0x8000) ∧
    (decodeWord w = some (.orVxVy (fieldX w) (fieldY w)) ↔ w &&& 0xF00F = 0x8001) ∧
    (decodeWord w = some (.andVxVy (fieldX w) (fieldY w)) ↔ w &&& 0xF00F = 0x8002) ∧
    (decodeWord w = some (.xorVxVy (fieldX w) (fieldY w)) ↔ w &&& 0xF00F = 0x8003) ∧
    (decodeWord w = some (.addVxVy (fieldX w) (fieldY w)) ↔ w &&& 0xF00F = 0x8004) ∧
    (decodeWord w = some (.subVxVy (fieldX w) (fieldY w)) ↔ w &&& 0xF00F = 0x8005) ∧
    (decodeWord w = some (.shrVx (fieldX w) (fieldY w)) ↔ w &&& 0xF00F = 0x8006) ∧
    (decodeWord w = some (.subnVxVy (fieldX w) (fieldY w)) ↔ w &&& 0xF00F = 0x8007) ∧
    (decodeWord w = some (.shlVx (fieldX w) (fieldY w)) ↔ w &&& 0xF00F = 0x800E) ∧
    (decodeWord w = some (.sneVxVy (fieldX w) (fieldY w)) ↔ w &&& 0xF00F = 0x9000) ∧
    (decodeWord w = some (.ldINnn (fieldNNN w)) ↔ w &&& 0xF000 = 0xA000) ∧
    (decodeWord w = some (.jpV0Nnn (fieldNNN w)) ↔ w &&& 0xF000 = 0xB000) ∧
    (decodeWord w = some (.rndVxNn (fieldX w) (fieldNN w)) ↔ w &&& 0xF000 = 0xC000) ∧
    (decodeWord w = some (.drwVxVyN (fieldX w) (fieldY w) (fieldN w)) ↔ w &&& 0xF000 = 0xD000) ∧
    (decodeWord w = some (.skpVx (fieldX w)) ↔ w &&& 0xF0FF = 0xE09E) ∧
    (decodeWord w = some (.sknpVx (fieldX w)) ↔ w &&& 0xF0FF = 0xE0A1) ∧
    (decodeWord w = some (.ldVxDt (fieldX w)) ↔ w &&& 0xF0FF = 0xF007) ∧
    (decodeWord w = some (.ldVxK (fieldX w)) ↔ w &&& 0xF0FF = 0xF00A) ∧
    (decodeWord w = some (.ldDtVx (fieldX w)) ↔ w &&& 0xF0FF = 0xF015) ∧
    (decodeWord w = some (.ldStVx (fieldX w)) ↔ w &&& 0xF0FF = 0xF018) ∧
    (decodeWord w = some (.addIVx (fieldX w)) ↔ w &&& 0xF0FF = 0xF01E) ∧
    (decodeWord w = some (.ldFVx (fieldX w)) ↔ w &&& 0xF0FF = 0xF029) ∧
    (decodeWord w = some (.ldBVx (fieldX w)) ↔ w &&& 0xF0FF = 0xF033) ∧
    (decodeWord w = some (.ldMemVx (fieldX w)) ↔ w &&& 0xF0FF = 0xF055) ∧
    (decodeWord w = some (.ldVxMem (fieldX w)) ↔ w &&& 0xF0FF = 0xF065)

/-- R98's table of illegal words: a word matches no row exactly when it is 5XYn or 9XYn with n ≠ 0, 8XYn with n in 8 to D or F,
EXnn other than 9E and A1, or FXnn other than the nine. -/
def Obligations.IllegalWordsAreExactlyThese : Prop :=
  ∀ w : Word, decodeWord w = none ↔
    ((w.toNat / 4096 = 5 ∨ w.toNat / 4096 = 9) ∧ w.toNat % 16 ≠ 0) ∨
    (w.toNat / 4096 = 8 ∧ w.toNat % 16 ∈ [0x8, 0x9, 0xA, 0xB, 0xC, 0xD, 0xF]) ∨
    (w.toNat / 4096 = 14 ∧ w.toNat % 256 ∉ [0x9E, 0xA1]) ∨
    (w.toNat / 4096 = 15 ∧ w.toNat % 256 ∉ [0x07, 0x0A, 0x15, 0x18, 0x1E, 0x29, 0x33, 0x55, 0x65])

/-- R97: the one overlap of the rows' patterns is that 0x00E0 and 0x00EE match CLS and RET and also SYS, and there the more
specific mask wins. -/
def Obligations.RowsOverlapOnlyAtClsAndRet : Prop :=
  (∀ (w : Word) (r q : OpcodeRow), r ∈ opcodeTable → q ∈ opcodeTable → r.hits w = true → q.hits w = true →
      r.mnemonic ≠ q.mnemonic →
        (w = 0x00E0 ∧ (r.mnemonic = "CLS" ∧ q.mnemonic = "SYS" ∨ r.mnemonic = "SYS" ∧ q.mnemonic = "CLS")) ∨
        (w = 0x00EE ∧ (r.mnemonic = "RET" ∧ q.mnemonic = "SYS" ∨ r.mnemonic = "SYS" ∧ q.mnemonic = "RET"))) ∧
  (∃ r q s : OpcodeRow, r ∈ opcodeTable ∧ q ∈ opcodeTable ∧ s ∈ opcodeTable ∧ r.mnemonic = "CLS" ∧ q.mnemonic = "RET" ∧
      s.mnemonic = "SYS" ∧ r.hits 0x00E0 = true ∧ q.hits 0x00EE = true ∧ s.hits 0x00E0 = true ∧ s.hits 0x00EE = true) ∧
  decodeWord 0x00E0#16 = some .cls ∧ decodeWord 0x00EE#16 = some .ret

/-- Decode and encode agree: every well-formed instruction, with every operand at every value, is what its word decodes to. -/
def Obligations.DecodeOfEncodeIsTheInstruction : Prop :=
  ∀ i : Instr, i.wellFormed = true → decodeWord (encode i) = some i

/-- The other direction: a word that decodes is the word of its instruction, which is well-formed. No bit is dropped, the ignored
y of 8XY6 and 8XYE included, so EINSTR is the fetched word (log 11). -/
def Obligations.EncodeOfDecodeIsTheWord : Prop :=
  ∀ (w : Word) (i : Instr), decodeWord w = some i → i.wellFormed = true ∧ encode i = w

/-! ## The step (30_encoding.md R94) -/

/-- R61: the fetched word is MEM[pc] || MEM[pc+1], the high byte first, at any parity of pc. -/
def Obligations.FetchIsBigEndian : Prop :=
  ∀ s : State, (fetchWord s).toNat / 256 = (s.MEM.read s.pc.toNat).toNat ∧
    (fetchWord s).toNat % 256 = (s.MEM.read (s.pc.toNat + 1)).toNat

/-- R94: when the Interpreter steps (nothing pending, or `step_en` the oldest pending action; log 5), is not halted, and the two
bytes at pc decode to i, the step is exec of i, with only the pending action taken off the list. -/
def Obligations.StepRunsTheDecodedInstruction : Prop :=
  ∀ (s : State) (i : Instr), s.inputs = [] ∨ s.inputs.head? = some .stepEn → Safe s → s.pc ≠ 0xFFF →
    decodeWord (fetchWord s) = some i → step s = exec i { s with inputs := s.inputs.tail }

/-- A word placed by `withFetchWord` is the instruction the very next step runs (the model's own loader, log 21), from every state
with canonical memory. -/
def Obligations.PlacedWordRunsNext : Prop :=
  ∀ (s : State) (w : Word) (i : Instr), Memory.wf s.MEM → decodeWord w = some i →
    step (s.withFetchWord 16 w.toNat) = exec i (s.withFetchWord 16 w.toNat)

/-- R76, R221 and the spec's decisions D33, D15 and D16 (log 10): a fetch fails exactly at pc = 0xFFF. There the engine halts with
CAUSE 1, EPC = 0xFFF and EADDR = 0x1000 and all else as before; elsewhere no step records CAUSE 1. -/
def Obligations.FetchFailsExactlyAtTheTop : Prop :=
  ∀ s : State, Safe s →
    (s.pc = 0xFFF → ∃ t, interpreterStep s = .next t ∧ OnlyHalt s t ∧ t.CAUSE = 1 ∧ t.EPC = 0xFFF ∧ t.EADDR = 0x1000 ∧
      t.EINSTR = s.EINSTR) ∧
    (s.pc ≠ 0xFFF → ∀ t, interpreterStep s = .next t → ¬ Safe t → t.CAUSE ≠ 1)

/-- R222 and R234 with D15, D16 and D17: an illegal word halts the engine with CAUSE 2, EPC and the word, or under
ON_ILLEGAL = skip reports an event with the word and moves on by 2, modulo 4096 by the spec's D6 (log 13); the event list is the
model's (log 6). -/
def Obligations.IllegalWordHaltsOrIsSkipped : Prop :=
  ∀ s : State, Safe s → s.pc ≠ 0xFFF → decodeWord (fetchWord s) = none →
    (s.cfg.onIllegal = .halt → ∃ t, interpreterStep s = .next t ∧ OnlyHalt s t ∧ t.CAUSE = 2 ∧ t.EPC = s.pc ∧
      t.EINSTR = fetchWord s ∧ t.EADDR = s.EADDR) ∧
    (s.cfg.onIllegal = .skip → ∃ t, interpreterStep s = .next t ∧ GoesOn 2 s t ∧ KeepsMemory s t ∧
      t = { s with pc := t.pc, MODE := t.MODE, events := s.events ++ [.illegal (fetchWord s)] })

/-- R226 with D15 and D16 (log 10): a step that raises a fatal exception changes nothing but MODE and the fault registers; pc still
addresses the faulting instruction. That the model's own fields stay too (log 1, 3, 5, 6) is no rule of the spec. -/
def Obligations.FatalExceptionsArePrecise : Prop :=
  ∀ s t : State, Safe s → interpreterStep s = .next t → ¬ Safe t → OnlyHalt s t

/-- R227, R233, R260 with D15, D29 and D30 (log 10, log 16): only a reset leaves Halted. While halted a step changes nothing at all
(but the model's pending action, log 5), a tick counts both timers down (R237), a key write sets its key (R242), and nothing else
changes. -/
def Obligations.OnlyResetLeavesTheHalt : Prop :=
  ∀ s t : State, ¬ Safe s → step s = .next t →
    ((s.inputs = [] ∨ s.inputs.head? = some .stepEn) → t = { s with inputs := s.inputs.tail }) ∧
    ((∀ rom, s.inputs.head? ≠ some (.rst rom)) →
      ¬ Safe t ∧ t = { s with DT := t.DT, ST := t.ST, KEYS := t.KEYS, inputs := s.inputs.tail }) ∧
    (s.inputs.head? = some .tick60 →
      t.DT.toNat = s.DT.toNat - 1 ∧ t.ST.toNat = s.ST.toNat - 1 ∧ KeepsKeys s t) ∧
    (∀ k b, s.inputs.head? = some (.keyWr k b) →
      keyDown t k = b ∧ (∀ j, j ≠ k → keyDown t j = keyDown s j) ∧ KeepsTimers s t) ∧
    ((∃ rom, s.inputs.head? = some (.rst rom)) → Safe t)

/-- No action of the machine (log 5) is refused, and the one that stops it is a reset with a ROM of more than 3584 bytes (R230,
R265, D34; log 16): every other state steps to a next state. -/
def Obligations.EveryActionCompletesButAnOversizeRom : Prop :=
  ∀ s : State,
    ((∃ rom, s.inputs.head? = some (.rst rom) ∧ rom.length > 3584) → step s = .fault .romTooLarge) ∧
    ((∀ rom, s.inputs.head? = some (.rst rom) → rom.length ≤ 3584) → ∃ t, step s = .next t)

/-- Every action (log 5) keeps the invariant: canonical memory (the model's form, log 8), consistent fault registers (R220, R228 with
D15 and D16; log 10), a waiting engine at an FX0A (R37, D12). -/
def Obligations.EveryActionKeepsTheInvariant : Prop :=
  ∀ s t : State, Inv s → step s = .next t → Inv t

/-- The invariant holds at reset, for every parameter value and every admitted ROM, so in `State.reset`. That MODE is Running and the
fault registers are 0 there (R39) are the spec's decisions D15 and D16 (log 10); the canonical form is the model's (log 8). -/
def Obligations.ResetHasTheInvariant : Prop :=
  (∀ (cfg : Config) (rom : List Byte), rom.length ≤ 3584 → Inv (State.boot cfg rom)) ∧ Inv State.reset

/-! ## Whole-machine rules (10_state.md) -/

/-- R21, R23, R28, R31 to R34, R43, R229 and 20_memory.md R64: each piece of state is changed by its own instructions only. That the
logic instructions keep VF and that FX33, FX55, FX65 and DXYN keep I is the spec's D25 (log 22). The parameters and the pending
actions, which no instruction changes, and `events` and `draws` are the model's (log 1, 5, 6, 3). -/
def Obligations.OnlyTheirInstructionsWriteEachState : Prop :=
  ∀ (i : Instr) (s t : State), exec i s = .next t →
    (∀ j, ¬ mayWriteV s.cfg j i → readV t j = readV s j) ∧
    (¬ mayWriteI i → t.I = s.I) ∧
    (¬ mayWriteMemory i → KeepsMemory s t ∧ t.MEM = s.MEM) ∧
    (¬ mayWriteScreen i → t.FB = s.FB) ∧
    (¬ mayWriteStack i → KeepsStack s t) ∧
    ((∀ x, i ≠ .ldDtVx x) → t.DT = s.DT) ∧ ((∀ x, i ≠ .ldStVx x) → t.ST = s.ST) ∧
    (¬ mayRaiseEvent i → t.events = s.events) ∧ ((∀ x nn, i ≠ .rndVxNn x nn) → t.draws = s.draws) ∧
    KeepsKeys s t ∧ t.cfg = s.cfg ∧ t.inputs = s.inputs

/-- R228 and R94 point 5 with D12, D15 and D16: an instruction that does not halt the engine leaves the fault registers alone, and
leaves MODE at Running unless it is an FX0A; one that halts is 00EE, 2NNN, DXYN, FX33, FX55 or FX65 (R231). -/
def Obligations.FaultRegistersChangeOnlyWithTheHalt : Prop :=
  ∀ (i : Instr) (s t : State), exec i s = .next t →
    (Safe t → KeepsFaultRegisters s t ∧ (t.MODE = .running ∨ ∃ x, i = .ldVxK x)) ∧
    (¬ Safe t → t.EPC = s.pc ∧ t.EINSTR = encode i ∧
      ((i = .ret ∧ t.CAUSE = 4) ∨ (∃ nnn, i = .call nnn ∧ t.CAUSE = 3) ∨
        (t.CAUSE = 5 ∧ ((∃ x y n, i = .drwVxVyN x y n) ∨ (∃ x, i = .ldBVx x) ∨ (∃ x, i = .ldMemVx x) ∨
          ∃ x, i = .ldVxMem x))))

/-- R27, the table of the value each instruction leaves in pc, all sums modulo 4096 (the spec's decision D6; log 13), with the key's
low nibble of D10 (log 14), the wait of D12, the halt of D15 (log 10), n = 0 of D26 (log 15) and the bounds check of D28
(log 22). -/
def Obligations.PcFollowsItsTable : Prop :=
  ∀ (i : Instr) (s t : State), exec i s = .next t → t.pc.toNat = pcAfter s i

/-! ## Reset, the timer unit, the keypad -/

/-- R39: every register after reset, for every parameter value and ROM. The zeros of V, I and the fault registers and MODE are the
spec's decisions D3, D15 and D16 and pc = 0x200 its D4 (log 9, log 10); STACK is unspecified and not stated (log 7). -/
def Obligations.ResetRegisterValues : Prop :=
  ∀ (cfg : Config) (rom : List Byte) (b : State), b = State.boot cfg rom →
    (∀ i, readV b i = 0) ∧ b.I = 0 ∧ b.pc = 0x200 ∧ b.SP.val = 0 ∧ b.DT = 0 ∧ b.ST = 0 ∧ soundActive b = false ∧
    (∀ r c, pixel b.FB r c = false) ∧ (∀ k, keyDown b k = false) ∧ b.MODE = .running ∧
    b.CAUSE = 0 ∧ b.EPC = 0 ∧ b.EINSTR = 0 ∧ b.EADDR = 0

/-- R262: the memory image of reset is the font at FONT_BASE, the ROM from 0x200 upward and 0x00 everywhere else (the zeros are the
spec's decision D5; log 8). -/
def Obligations.ResetMemoryImage : Prop :=
  ∀ (cfg : Config) (rom : List Byte), rom.length ≤ 3584 →
    (∀ k : Fin 80, (State.boot cfg rom).MEM.read (cfg.fontBase.val + k.val) = cfg.font[k]) ∧
    (∀ (k : Nat) (h : k < rom.length), (State.boot cfg rom).MEM.read (0x200 + k) = rom[k]) ∧
    (∀ a : Nat, a < cfg.fontBase.val ∨ cfg.fontBase.val + 80 ≤ a → a < 0x200 ∨ 0x200 + rom.length ≤ a →
      (State.boot cfg rom).MEM.read a = 0x00)

/-- R260 with D30: a reset with an admitted ROM is accepted in every state and replaces the whole state of the block by the boot
state, whose values `ResetRegisterValues` and `ResetMemoryImage` state with their decisions, and whose stack entries are the
model's choice (log 7); what the host has yet to do, the events it was told and the count of draws are the model's and stay
(log 16). -/
def Obligations.ResetRebuildsTheWholeState : Prop :=
  ∀ (s : State) (rom : List Byte) (rest : List Input), s.inputs = .rst rom :: rest → rom.length ≤ 3584 →
    ∃ t, step s = .next t ∧ Safe t ∧ t.pc = 0x200 ∧
      t = { State.boot s.cfg rom with inputs := rest, events := s.events, draws := s.draws }

/-- R237 with D29 (log 10): a tick, whatever MODE is, takes one off each timer that is above 0, leaves a timer at 0, and changes
nothing else (but the model's pending action, log 5). -/
def Obligations.TickCountsBothTimersDown : Prop :=
  ∀ (s : State) (rest : List Input), s.inputs = .tick60 :: rest →
    ∃ t, step s = .next t ∧ t.DT.toNat = s.DT.toNat - 1 ∧ t.ST.toNat = s.ST.toNat - 1 ∧ KeepsMemory s t ∧
      t = { s with DT := t.DT, ST := t.ST, inputs := rest }

/-- R237, whatever MODE is (the spec's D29, log 10): a timer loaded with v reads 0 after v ticks in a row, and v − n after n of them;
it never wraps. The sound line falls with ST (R238). The pending list is the model's (log 5); `TimersCountTicksAmongSteps` has
the steps and key writes that R237 allows in between. -/
def Obligations.TimersReachZeroAfterTheirTicks : Prop :=
  ∀ (n : Nat) (s : State) (rest : List Input), s.inputs = List.replicate n .tick60 ++ rest →
    ∃ t : State, Sys2Proof.core.run n s = .next t ∧ t.DT.toNat = s.DT.toNat - n ∧ t.ST.toNat = s.ST.toNat - n ∧
      (soundActive t = true ↔ n < s.ST.toNat) ∧ t = { s with DT := t.DT, ST := t.ST, inputs := rest }

/-- R242 with D19, and D29 for a halted engine (log 10): a key write, whatever MODE is, sets that key bit and changes nothing else
(but the model's pending action, log 5). -/
def Obligations.KeyWriteSetsThatKeyOnly : Prop :=
  ∀ (s : State) (k : Key) (b : Bool) (rest : List Input), s.inputs = .keyWr k b :: rest →
    ∃ t, step s = .next t ∧ keyDown t k = b ∧ (∀ j, j ≠ k → keyDown t j = keyDown s j) ∧ KeepsMemory s t ∧
      t = { s with KEYS := t.KEYS, inputs := rest }

/-! ## Memory (20_memory.md) -/

/-- The canonical form does its work: two canonical memories that read alike at every address are the same data. -/
def Obligations.CanonicalMemoryIsItsReads : Prop :=
  ∀ m q : Memory, Memory.wf m → Memory.wf q → (∀ a : Nat, m.read a = q.read a) → m = q

/-- R73 with D23: the very next fetch sees the bytes an FX55 stored, wherever they cover the two bytes at the new pc, which is
pc + 2 modulo 4096 (D6, log 13); stores are allowed at every address (D27, log 22). -/
def Obligations.NextFetchSeesStoredBytes : Prop :=
  ∀ (s : State) (x k j : RegIdx), Memory.wf s.MEM → s.I.toNat + x.val ≤ 0xFFF → j.val = k.val + 1 → j ≤ x →
    (s.pc.toNat + 2) % 4096 = effectiveAddr s k.val →
    ∃ t, exec (.ldMemVx x) s = .next t ∧ fetchWord t = readV s k ++ readV s j

/-! ## Control flow (40_control_flow.md) -/

/-- R121 (pseudocode): a return with SP > 0 takes the newest entry into pc as it is and lowers SP by one; nothing else but MODE
changes. -/
def Obligations.ReturnTakesTheNewestEntry : Prop :=
  ∀ (s : State) (h : 0 < s.SP.val), ∃ t, exec .ret s = .next t ∧ t.pc = s.STACK[s.SP.val - 1] ∧
    t.SP.val = s.SP.val - 1 ∧ t.MODE = .running ∧ KeepsMemory s t ∧
    t = { s with SP := t.SP, pc := t.pc, MODE := t.MODE }

/-- R124 (pseudocode): a call with SP < 16 pushes pc + 2 modulo 4096 (D6) and jumps; the other entries are unchanged, and nothing
else but MODE. -/
def Obligations.CallPushesAndJumps : Prop :=
  ∀ (s : State) (nnn : Addr) (h : s.SP.val < 16), ∃ t, exec (.call nnn) s = .next t ∧ t.pc = nnn ∧
    (t.STACK[s.SP.val]).toNat = (s.pc.toNat + 2) % 4096 ∧ (∀ k : Fin 16, k.val ≠ s.SP.val → t.STACK[k] = s.STACK[k]) ∧
    t.SP.val = s.SP.val + 1 ∧ t.MODE = .running ∧ KeepsMemory s t ∧
    t = { s with STACK := t.STACK, SP := t.SP, pc := t.pc, MODE := t.MODE }

/-- R223 and R224 with D15 and D16: a call on a full stack and a return on an empty one halt the engine with CAUSE 3 and 4, EPC and
their own word; nothing else changes. -/
def Obligations.StackLimitsHalt : Prop :=
  ∀ s : State,
    (∀ nnn, s.SP.val = 16 → ∃ t, exec (.call nnn) s = .next t ∧ OnlyHalt s t ∧ t.CAUSE = 3 ∧ t.EPC = s.pc ∧
      t.EINSTR.toNat = 0x2000 + nnn.toNat ∧ t.EADDR = s.EADDR) ∧
    (s.SP.val = 0 → ∃ t, exec .ret s = .next t ∧ OnlyHalt s t ∧ t.CAUSE = 4 ∧ t.EPC = s.pc ∧ t.EINSTR = 0x00EE ∧
      t.EADDR = s.EADDR)

/-- R121, "CALL then RETURN restores PC to the instruction immediately after the original CALL, for stack depths 1 through 16": from
any depth below 16, whatever the called routine does to the rest of the machine, a return with the stack as the call left it
goes to pc + 2 (modulo 4096, D6) and restores the depth. -/
def Obligations.CallThenReturnComesBack : Prop :=
  ∀ (s t u : State) (nnn : Addr), s.SP.val < 16 → exec (.call nnn) s = .next t → KeepsStack t u →
    ∃ v, exec .ret u = .next v ∧ v.pc.toNat = (s.pc.toNat + 2) % 4096 ∧ v.SP = s.SP

/-- R122 and R229 with D18: 0NNN reports UnsupportedInstruction(nnn) (the event list is the model's, log 6) and moves on by 2, modulo
4096 (D6, log 13); it does not jump, and nothing else changes. -/
def Obligations.MachineCodeCallIsReportedAndSkipped : Prop :=
  ∀ (s : State) (nnn : Addr), ∃ t, exec (.sys nnn) s = .next t ∧ GoesOn 2 s t ∧ KeepsMemory s t ∧
    t.events = s.events ++ [.unsupported nnn] ∧ t = { s with pc := t.pc, MODE := t.MODE, events := t.events }

/-- R123, and R94 point 5 for MODE: 1NNN writes pc ← nnn, any value, odd ones included, leaves MODE at Running and changes nothing
else; no exception. Its word is mask 0xF000, match 0x1000. That the model's own fields stay too (log 1, 3, 5, 6) is no rule of the
spec. -/
def Obligations.JumpGoesToItsAddress : Prop :=
  (∀ w : Word, w &&& 0xF000 = 0x1000 → decodeWord w = some (.jp (fieldNNN w))) ∧
  ∀ (s : State) (nnn : Addr), ∃ t, exec (.jp nnn) s = .next t ∧ t.pc = nnn ∧ t.MODE = .running ∧ OnlyControl s t

/-- R129 with D6: BNNN goes to (nnn + V0) mod 4096, silently; the offset is always V0. -/
def Obligations.JumpWithOffsetWraps : Prop :=
  ∀ (s : State) (nnn : Addr), ∃ t, exec (.jpV0Nnn nnn) s = .next t ∧
    t.pc.toNat = (nnn.toNat + (readV s 0).toNat) % 4096 ∧ t.MODE = .running ∧ OnlyControl s t

/-- R125 to R128: the four register skips move by 4 when their comparison holds and by 2 when not (where 12 bits hold the sum; the
wrap is stated in `PcFollowsItsTable`), raise no exception and change no register, flag, I, memory byte, cell, stack entry, timer
or key; with their masks and matches, and 5XYN and 9XYN with n ≠ 0 illegal. -/
def Obligations.RegisterSkipsCompare : Prop :=
  (∀ w : Word, (w &&& 0xF000 = 0x3000 → decodeWord w = some (.seVxNn (fieldX w) (fieldNN w))) ∧
    (w &&& 0xF000 = 0x4000 → decodeWord w = some (.sneVxNn (fieldX w) (fieldNN w))) ∧
    (w &&& 0xF00F = 0x5000 → decodeWord w = some (.seVxVy (fieldX w) (fieldY w))) ∧
    (w &&& 0xF00F = 0x9000 → decodeWord w = some (.sneVxVy (fieldX w) (fieldY w))) ∧
    (w &&& 0xF000 = 0x5000 ∨ w &&& 0xF000 = 0x9000 → w &&& 0x000F ≠ 0 → decodeWord w = none)) ∧
  ∀ (s : State) (i : Instr) (taken : Prop),
    (∃ x nn, i = .seVxNn x nn ∧ (taken ↔ (readV s x).toNat = nn.toNat)) ∨
    (∃ x nn, i = .sneVxNn x nn ∧ (taken ↔ (readV s x).toNat ≠ nn.toNat)) ∨
    (∃ x y, i = .seVxVy x y ∧ (taken ↔ (readV s x).toNat = (readV s y).toNat)) ∨
    (∃ x y, i = .sneVxVy x y ∧ (taken ↔ (readV s x).toNat ≠ (readV s y).toNat)) →
    ∃ t, exec i s = .next t ∧ (taken → MovesBy 4 s t) ∧ (¬ taken → MovesBy 2 s t) ∧ Safe t ∧ KeepsRegisters s t ∧
      t.I = s.I ∧ KeepsDevices s t

/-! ## Register load, arithmetic, logic, shift, random (41_register_alu.md) -/

/-- R141 and R143: 6XNN loads nn and 8XY0 copies Vy into any register, VF included, with no flag and no exception; with their
masks and matches. -/
def Obligations.LoadImmediateAndCopy : Prop :=
  (∀ w : Word, (w &&& 0xF000 = 0x6000 → decodeWord w = some (.ldVxNn (fieldX w) (fieldNN w))) ∧
    (w &&& 0xF00F = 0x8000 → decodeWord w = some (.ldVxVy (fieldX w) (fieldY w)))) ∧
  (∀ (s : State) (x : RegIdx) (nn : Byte), ∃ t, exec (.ldVxNn x nn) s = .next t ∧ readV t x = nn ∧
    KeepsRegistersBut x s t ∧ MovesBy 2 s t ∧ Safe t ∧ t.I = s.I ∧ KeepsDevices s t) ∧
  (∀ (s : State) (x y : RegIdx), ∃ t, exec (.ldVxVy x y) s = .next t ∧ readV t x = readV s y ∧
    KeepsRegistersBut x s t ∧ MovesBy 2 s t ∧ Safe t ∧ t.I = s.I ∧ KeepsDevices s t)

/-- R142: 7XNN adds nn to Vx modulo 256 and writes no flag: VF changes only as the destination. -/
def Obligations.AddImmediateWrapsWithoutFlag : Prop :=
  (∀ w : Word, w &&& 0xF000 = 0x7000 → decodeWord w = some (.addVxNn (fieldX w) (fieldNN w))) ∧
  ∀ (s : State) (x : RegIdx) (nn : Byte), ∃ t, exec (.addVxNn x nn) s = .next t ∧
    (readV t x).toNat = ((readV s x).toNat + nn.toNat) % 256 ∧ KeepsRegistersBut x s t ∧ MovesBy 2 s t ∧ Safe t ∧
    t.I = s.I ∧ KeepsDevices s t

/-- R144 to R146 with D25: 8XY1, 8XY2 and 8XY3 combine Vx and Vy bit by bit into Vx; no other register changes, VF included (the
spec reads the table as complete; log 22). -/
def Obligations.LogicIsBitwiseWithoutFlag : Prop :=
  ∀ (s : State) (x y : RegIdx),
    (∃ t, exec (.orVxVy x y) s = .next t ∧ GoesOn 2 s t ∧ KeepsRegistersBut x s t ∧ OnlyRegisters s t ∧
      ∀ k, (readV t x).getLsbD k = ((readV s x).getLsbD k || (readV s y).getLsbD k)) ∧
    (∃ t, exec (.andVxVy x y) s = .next t ∧ GoesOn 2 s t ∧ KeepsRegistersBut x s t ∧ OnlyRegisters s t ∧
      ∀ k, (readV t x).getLsbD k = ((readV s x).getLsbD k && (readV s y).getLsbD k)) ∧
    (∃ t, exec (.xorVxVy x y) s = .next t ∧ GoesOn 2 s t ∧ KeepsRegistersBut x s t ∧ OnlyRegisters s t ∧
      ∀ k, (readV t x).getLsbD k = ((readV s x).getLsbD k ^^ (readV s y).getLsbD k))

/-- R147 with D8 for x = 15: 8XY4 leaves the sum modulo 256 in Vx, unless x = 15, and the carry in VF, written last; no other
register changes. -/
def Obligations.AddLeavesSumAndCarry : Prop :=
  ∀ (s : State) (x y : RegIdx), ∃ t, exec (.addVxVy x y) s = .next t ∧ GoesOn 2 s t ∧ OnlyRegisters s t ∧
    (x ≠ 15 → (readV t x).toNat = ((readV s x).toNat + (readV s y).toNat) % 256) ∧
    (readV t 15).toNat = (if (readV s x).toNat + (readV s y).toNat > 255 then 1 else 0) ∧
    (∀ j, j ≠ x → j ≠ 15 → readV t j = readV s j)

/-- R148 and R150 with D8 for x = 15: 8XY5 leaves Vx − Vy and 8XY7 leaves Vy − Vx modulo 256 in Vx, unless x = 15, and 0 in VF on
a borrow, else 1, written last; no other register changes, Vy included. -/
def Obligations.SubtractionsLeaveDifferenceAndNotBorrow : Prop :=
  ∀ (s : State) (x y : RegIdx),
    (∃ t, exec (.subVxVy x y) s = .next t ∧ GoesOn 2 s t ∧ OnlyRegisters s t ∧
      (x ≠ 15 → (readV t x).toNat = ((readV s x).toNat + 256 - (readV s y).toNat) % 256) ∧
      (readV t 15).toNat = (if (readV s y).toNat > (readV s x).toNat then 0 else 1) ∧
      (∀ j, j ≠ x → j ≠ 15 → readV t j = readV s j)) ∧
    (∃ t, exec (.subnVxVy x y) s = .next t ∧ GoesOn 2 s t ∧ OnlyRegisters s t ∧
      (x ≠ 15 → (readV t x).toNat = ((readV s y).toNat + 256 - (readV s x).toNat) % 256) ∧
      (readV t 15).toNat = (if (readV s x).toNat > (readV s y).toNat then 0 else 1) ∧
      (∀ j, j ≠ x → j ≠ 15 → readV t j = readV s j))

/-- R149 and R151 with D8 for x = 15: 8XY6 halves Vx and 8XYE doubles it modulo 256, unless x = 15, with the bit shifted out in VF,
written last; the outcome is the same for every y (R100) and no other register changes. -/
def Obligations.ShiftsMoveOneBitAndIgnoreY : Prop :=
  ∀ (s : State) (x : RegIdx),
    (∃ t, (∀ y, exec (.shrVx x y) s = .next t) ∧ GoesOn 2 s t ∧ OnlyRegisters s t ∧
      (x ≠ 15 → (readV t x).toNat = (readV s x).toNat / 2) ∧ (readV t 15).toNat = (readV s x).toNat % 2 ∧
      (∀ j, j ≠ x → j ≠ 15 → readV t j = readV s j)) ∧
    (∃ t, (∀ y, exec (.shlVx x y) s = .next t) ∧ GoesOn 2 s t ∧ OnlyRegisters s t ∧
      (x ≠ 15 → (readV t x).toNat = (readV s x).toNat * 2 % 256) ∧ (readV t 15).toNat = (readV s x).toNat / 128 ∧
      (∀ j, j ≠ x → j ≠ 15 → readV t j = readV s j))

/-- R152 with D21: after CXNN the register has no bit outside nn, and so is 0 for nn = 0, whatever byte was drawn; the draw is taken
once and no other register changes. Nothing is said of the byte itself, a free value (log 3). -/
def Obligations.RandomByteIsMasked : Prop :=
  ∀ (s : State) (x : RegIdx) (nn : Byte), ∃ t, exec (.rndVxNn x nn) s = .next t ∧ GoesOn 2 s t ∧
    (∀ k, (readV t x).getLsbD k = true → nn.getLsbD k = true) ∧ (nn = 0 → readV t x = 0) ∧
    (∃ r : Byte, readV t x = r &&& nn) ∧ KeepsRegistersBut x s t ∧ KeepsMemory s t ∧ s.draws < t.draws ∧
    t = { s with V := t.V, pc := t.pc, MODE := t.MODE, draws := t.draws }

/-! ## Address register and memory (42_index_memory.md) -/

/-- R161: ANNN loads I with nnn, every value, with no check, no flag and no exception. -/
def Obligations.LoadAddressRegister : Prop :=
  (∀ w : Word, w &&& 0xF000 = 0xA000 → decodeWord w = some (.ldINnn (fieldNNN w))) ∧
  ∀ (s : State) (nnn : Addr), ∃ t, exec (.ldINnn nnn) s = .next t ∧ t.I = nnn ∧ MovesBy 2 s t ∧ Safe t ∧
    KeepsRegisters s t ∧ KeepsDevices s t

/-- R162 with D13: FX1E adds Vx to I modulo 4096; VF receives 1 or 0 for an overflow past 0xFFF when FX1E_SETS_VF, also when
x = 15 (D8), and no register changes when not. -/
def Obligations.AddToAddressRegisterWraps : Prop :=
  ∀ (s : State) (x : RegIdx), ∃ t, exec (.addIVx x) s = .next t ∧ GoesOn 2 s t ∧
    t.I.toNat = (s.I.toNat + (readV s x).toNat) % 4096 ∧ KeepsRegistersBut 15 s t ∧ KeepsMemory s t ∧
    (s.cfg.fx1eSetsVF = true →
      (readV t 15).toNat = if s.I.toNat + (readV s x).toNat > 0xFFF then 1 else 0) ∧
    (s.cfg.fx1eSetsVF = false → readV t 15 = readV s 15) ∧
    t = { s with V := t.V, I := t.I, pc := t.pc, MODE := t.MODE }

/-- R163 with D1 and D9: FX29 leaves FONT_BASE + 5·d in I for the low nibble d of Vx, for every FONT_BASE, below 0x200, whatever
memory holds. -/
def Obligations.GlyphAddressOfTheDigit : Prop :=
  ∀ (s : State) (x : RegIdx), ∃ t, exec (.ldFVx x) s = .next t ∧ GoesOn 2 s t ∧
    t.I.toNat = s.cfg.fontBase.val + 5 * ((readV s x).toNat % 16) ∧ t.I.toNat + 5 ≤ 0x200 ∧ KeepsMemory s t ∧
    t = { s with I := t.I, pc := t.pc, MODE := t.MODE }

/-- R164 (pseudocode) with R160 where I + 2 is in memory: FX33 stores the hundreds, tens and ones digits of Vx at I, I + 1 and I + 2,
low memory and the font included (D27); every other byte reads as before, and no register changes, I by the spec's D25 (log 22). -/
def Obligations.DecimalDigitsAreStored : Prop :=
  ∀ (s : State) (x : RegIdx), Memory.wf s.MEM → s.I.toNat + 2 ≤ 0xFFF →
    ∃ t, exec (.ldBVx x) s = .next t ∧ GoesOn 2 s t ∧
      (t.MEM.read (effectiveAddr s 0)).toNat = (readV s x).toNat / 100 ∧
      (t.MEM.read (effectiveAddr s 1)).toNat = (readV s x).toNat / 10 % 10 ∧
      (t.MEM.read (effectiveAddr s 2)).toNat = (readV s x).toNat % 10 ∧
      KeepsMemoryOutside (effectiveAddr s 0) 3 s t ∧ OnlyMemory s t

/-- R165 (pseudocode) with R160 where I + x is in memory: FX55 stores V[k] at I + k for every k from 0 to x, low memory and the font
included (D27); every other byte reads as before, and no register changes, I by the spec's D25 (log 22). -/
def Obligations.RegistersAreStored : Prop :=
  ∀ (s : State) (x : RegIdx), Memory.wf s.MEM → s.I.toNat + x.val ≤ 0xFFF →
    ∃ t, exec (.ldMemVx x) s = .next t ∧ GoesOn 2 s t ∧
      (∀ k, k ≤ x → t.MEM.read (effectiveAddr s k.val) = readV s k) ∧
      KeepsMemoryOutside (effectiveAddr s 0) (x.val + 1) s t ∧ OnlyMemory s t

/-- R166 (pseudocode) with R160 where I + x is in memory: FX65 loads V[k] from I + k for every k from 0 to x; the registers above Vx,
memory and, by the spec's D25 (log 22), I are unchanged. -/
def Obligations.RegistersAreLoaded : Prop :=
  ∀ (s : State) (x : RegIdx), s.I.toNat + x.val ≤ 0xFFF →
    ∃ t, exec (.ldVxMem x) s = .next t ∧ GoesOn 2 s t ∧
      (∀ k, k ≤ x → readV t k = s.MEM.read (effectiveAddr s k.val)) ∧ (∀ k, x < k → readV t k = readV s k) ∧
      OnlyRegisters s t

/-- R67 and R225 with D15, D16 and D28 (log 10, log 22): FX33, FX55, FX65 and DXYN (n > 0) whose highest address I + kmax lies beyond
0xFFF halt the engine with CAUSE 5, EPC, their own word and EADDR = I + kmax, unwrapped; nothing else changes, so no byte was
transferred. -/
def Obligations.DataBeyondMemoryHalts : Prop :=
  ∀ (s : State) (i : Instr) (kmax : Nat),
    (∃ x, i = .ldBVx x ∧ kmax = 2) ∨ (∃ x, i = .ldMemVx x ∧ kmax = x.val) ∨ (∃ x, i = .ldVxMem x ∧ kmax = x.val) ∨
      (∃ x y n, i = .drwVxVyN x y n ∧ n.toNat = kmax + 1) →
    s.I.toNat + kmax > 0xFFF →
    ∃ t, exec i s = .next t ∧ OnlyHalt s t ∧ t.CAUSE = 5 ∧ t.EPC = s.pc ∧ t.EINSTR = encode i ∧
      t.EADDR.toNat = s.I.toNat + kmax

/-! ## Display (43_display.md) -/

/-- R181 with D19 for the pulse: 00E0 turns all cells off, raises fb_changed (the event list is the model's, log 6) and changes
nothing else, VF included. -/
def Obligations.ClearTurnsEveryCellOff : Prop :=
  ∀ s : State, ∃ t, exec .cls s = .next t ∧ GoesOn 2 s t ∧ (∀ r c, pixel t.FB r c = false) ∧ KeepsMemory s t ∧
    t.events = s.events ++ [.fbChanged] ∧
    t = { s with FB := t.FB, pc := t.pc, MODE := t.MODE, events := t.events }

/-- R180 and R182 with D14 and D26 (log 15) where the sprite's bytes are in memory or n = 0: DXYN flips exactly the cells a 1 pixel of
the sprite lands on, wrapping at the edges, leaves 1 in VF if one of them was on and 0 if not, raises fb_changed (D19; the event
list is the model's, log 6) and changes nothing else; that I stays is the spec's D25 (log 22). -/
def Obligations.DrawFlipsCoveredCells : Prop :=
  ∀ (s : State) (x y : RegIdx) (n : BitVec 4), n = 0 ∨ s.I.toNat + n.toNat - 1 ≤ 0xFFF →
    ∃ t, exec (.drwVxVyN x y n) s = .next t ∧ GoesOn 2 s t ∧
      (∀ r c, SpriteCovers s x y n r c → pixel t.FB r c = !pixel s.FB r c) ∧
      (∀ r c, ¬ SpriteCovers s x y n r c → pixel t.FB r c = pixel s.FB r c) ∧
      ((∃ r c, SpriteCovers s x y n r c ∧ pixel s.FB r c = true) → readV t 15 = 1) ∧
      ((¬ ∃ r c, SpriteCovers s x y n r c ∧ pixel s.FB r c = true) → readV t 15 = 0) ∧
      KeepsRegistersBut 15 s t ∧ KeepsMemory s t ∧
      t = { s with V := t.V, FB := t.FB, pc := t.pc, MODE := t.MODE, events := s.events ++ [.fbChanged] }

/-- R183 (c) and (d), 43_display.md section 1: drawing the identical sprite twice at the same place restores the framebuffer, for
every sprite of up to 15 rows; two DXYN in a row whose coordinates are not in VF (a first draw with x or y = 15 moves the place of
the second) do so, and the second reports a collision exactly when the first turned a cell on. -/
def Obligations.DrawingTwiceRestoresTheScreen : Prop :=
  (∀ (fb : Screen) (x0 y0 n : Nat) (bytes : Nat → Byte), n ≤ 15 →
    (blitSprite (blitSprite fb x0 y0 n bytes).1 x0 y0 n bytes).1 = fb) ∧
  ∀ (s : State) (x y : RegIdx) (n : BitVec 4), x ≠ 15 → y ≠ 15 → n = 0 ∨ s.I.toNat + n.toNat - 1 ≤ 0xFFF →
    ∃ t u, exec (.drwVxVyN x y n) s = .next t ∧ exec (.drwVxVyN x y n) t = .next u ∧ u.FB = s.FB ∧
      (readV u 15 = 1 ↔ ∃ r c, pixel s.FB r c = false ∧ pixel t.FB r c = true)

/-! ## Keypad and timers (44_keypad_timers.md) -/

/-- R201 and R202 with D10: EX9E moves by 4 when the key of Vx's low nibble is down and by 2 when not, EXA1 the other way round;
neither changes anything but pc and MODE. -/
def Obligations.KeySkipsTestOneKey : Prop :=
  ∀ (s : State) (x : RegIdx) (k : Key), k.val = (readV s x).toNat % 16 →
    (∃ t, exec (.skpVx x) s = .next t ∧ (if keyDown s k then GoesOn 4 s t else GoesOn 2 s t) ∧ OnlyControl s t) ∧
    (∃ t, exec (.sknpVx x) s = .next t ∧ (if keyDown s k then GoesOn 2 s t else GoesOn 4 s t) ∧ OnlyControl s t)

/-- R203, R205, R206 and R238: FX07 reads DT, FX15 replaces it whole, so that the next tick counts down from Vx, FX18 writes ST, and
in every state sound_active is on exactly while ST > 0; pc + 2 modulo 4096 (D6, log 13), no flag, no exception, nothing else
changes; with their masks and matches. -/
def Obligations.TimerRegistersAreReadAndWritten : Prop :=
  (∀ w : Word, (w &&& 0xF0FF = 0xF007 → decodeWord w = some (.ldVxDt (fieldX w))) ∧
    (w &&& 0xF0FF = 0xF015 → decodeWord w = some (.ldDtVx (fieldX w))) ∧
    (w &&& 0xF0FF = 0xF018 → decodeWord w = some (.ldStVx (fieldX w)))) ∧
  (∀ s : State, soundActive s = true ↔ 0 < s.ST.toNat) ∧
  ∀ (s : State) (x : RegIdx),
    (∃ t, exec (.ldVxDt x) s = .next t ∧ readV t x = s.DT ∧ KeepsRegistersBut x s t ∧ GoesOn 2 s t ∧ OnlyRegisters s t) ∧
    (∃ t, exec (.ldDtVx x) s = .next t ∧ t.DT = readV s x ∧ (tick t).DT.toNat = (readV s x).toNat - 1 ∧ GoesOn 2 s t ∧
      KeepsMemory s t ∧ t = { s with DT := t.DT, pc := t.pc, MODE := t.MODE }) ∧
    (∃ t, exec (.ldStVx x) s = .next t ∧ t.ST = readV s x ∧ (soundActive t = true ↔ 0 < (readV s x).toNat) ∧ GoesOn 2 s t ∧
      KeepsMemory s t ∧ t = { s with ST := t.ST, pc := t.pc, MODE := t.MODE })

/-- R204 with D11: FX0A with some key down stores the number of one pressed key in Vx and goes on, for every KEY_SELECT, and the
lowest by default; it consumes no key and no other register changes. -/
def Obligations.KeyWaitCompletesOnAPressedKey : Prop :=
  ∀ (s : State) (x : RegIdx), (∃ k, keyDown s k = true) →
    ∃ t k, exec (.ldVxK x) s = .next t ∧ keyDown s k = true ∧ (readV t x).toNat = k.val ∧
      (s.cfg.keySelect = .lowest → ∀ j, keyDown s j = true → k ≤ j) ∧ KeepsRegistersBut x s t ∧ GoesOn 2 s t ∧
      OnlyRegisters s t

/-- R204 and R207 with D12: FX0A with no key down changes MODE to WaitingForKey and nothing else, pc included, and executed again it
changes nothing; after a key write (R242) it completes with that key and pc + 2 modulo 4096 (the spec's D6, log 13). -/
def Obligations.KeyWaitIsReexecution : Prop :=
  ∀ (s : State) (x : RegIdx), (∀ k, keyDown s k = false) →
    ∃ t, exec (.ldVxK x) s = .next t ∧ t.MODE = .waitingForKey ∧ t = { s with MODE := t.MODE } ∧
      exec (.ldVxK x) t = .next t ∧
      ∀ k, ∃ u, exec (.ldVxK x) (keyWrite t k true) = .next u ∧ (readV u x).toNat = k.val ∧ GoesOn 2 s u

/-! ## The timers among other actions -/

/-- R237 and R239 with D20 and D29: over any sequence of steps, ticks and key writes without a reset, DT loses one per tick, never
below 0, if no step of the sequence executes an FX15, and ST likewise if none executes an FX18; the sound line follows ST (R238).
The number of steps in between does not matter. The sequence is the model's pending list (log 5). -/
def Obligations.TimersCountTicksAmongSteps : Prop :=
  ∀ (l : List Input) (s : State) (rest : List Input), s.inputs = l ++ rest → (∀ rom, .rst rom ∉ l) →
    ∃ t : State, Sys2Proof.core.run l.length s = .next t ∧ t.inputs = rest ∧
      ((∀ (j : Nat) (u : State), j < l.length → Sys2Proof.core.run j s = .next u → u.inputs.head? = some .stepEn →
          ∀ x, decodeWord (fetchWord u) ≠ some (.ldDtVx x)) →
        t.DT.toNat = s.DT.toNat - l.count .tick60) ∧
      ((∀ (j : Nat) (u : State), j < l.length → Sys2Proof.core.run j s = .next u → u.inputs.head? = some .stepEn →
          ∀ x, decodeWord (fetchWord u) ≠ some (.ldStVx x)) →
        t.ST.toNat = s.ST.toNat - l.count .tick60 ∧ (soundActive t = true ↔ l.count .tick60 < s.ST.toNat))
end

