-- ==== Sys2Proof/Laws/Memory.lean ====
section
/-! SUPPORT. The laws of memory: a read after a write, and that every operation keeps the canonical form. -/

namespace Sys2Proof.Machine

/-- A write leaves every other address as it reads. -/
theorem Memory.read_write_ne (m : Memory) (a b : Nat) (v : Byte) (h : b ≠ a) :
    (m.write a v).read b = m.read b := by
  induction m with
  | nil => unfold Memory.write; split <;> simp [Memory.read, Ne.symm h]
  | cons c m ih =>
    unfold Memory.write
    by_cases h₁ : c.1 < a
    · simp [h₁, Memory.read, ih]
    · by_cases h₂ : c.1 = a
      · have h₃ : a ≠ b := Ne.symm h
        by_cases hv : v = Memory.unlisted <;> simp [h₂, hv, Memory.read, h₃]
      · by_cases hv : v = Memory.unlisted <;> simp [h₁, h₂, hv, Memory.read, Ne.symm h]

/-- In a canonical memory no cell lies below the first, so an address below it reads as unlisted. -/
theorem Memory.read_of_lt (m : Memory) (a : Nat) (h : ∀ c ∈ m, a < c.1) : m.read a = Memory.unlisted := by
  induction m with
  | nil => rfl
  | cons c m ih =>
    have h₁ : c.1 ≠ a := (h c List.mem_cons_self).ne'
    simp [Memory.read, h₁, ih fun d hd => h d (List.mem_cons_of_mem _ hd)]

/-- A canonical memory reads back the byte written. -/
theorem Memory.read_write_same (m : Memory) (a : Nat) (v : Byte) (hm : Memory.wf m) : (m.write a v).read a = v := by
  induction m with
  | nil => unfold Memory.write; split <;> simp_all [Memory.read]
  | cons c m ih =>
    obtain ⟨hp, hc⟩ := hm
    rw [List.pairwise_cons] at hp
    have hm' : Memory.wf m := ⟨hp.2, fun d hd => hc d (List.mem_cons_of_mem _ hd)⟩
    have ih := ih hm'
    unfold Memory.write
    by_cases h₁ : c.1 < a
    · simp [h₁, Memory.read, ih, h₁.ne]
    · by_cases hv : v = Memory.unlisted
      · by_cases h₂ : c.1 = a
        · simpa [h₁, h₂, hv] using Memory.read_of_lt m a fun d hd => h₂ ▸ hp.1 d hd
        · have hlt : ∀ d ∈ m, a < d.1 := fun d hd => by have := hp.1 d hd; omega
          simp [h₁, h₂, hv, Memory.read, Memory.read_of_lt m a hlt]
      · simp [h₁, hv, Memory.read]

/-- Every cell a write leaves is an old one or the one written. -/
theorem Memory.mem_write (m : Memory) (a : Nat) (v : Byte) (d : Host.Cell) (h : d ∈ m.write a v) :
    d ∈ m ∨ (d = (a, v) ∧ v ≠ Memory.unlisted) := by
  induction m with
  | nil => unfold Memory.write at h; split at h <;> simp_all
  | cons c m ih =>
    unfold Memory.write at h
    by_cases h₁ : c.1 < a
    · simp only [h₁, if_true, List.mem_cons] at h ⊢
      rcases h with h | h
      · exact .inl (.inl h)
      · rcases ih h with h | h
        · exact .inl (.inr h)
        · exact .inr h
    · by_cases hv : v = Memory.unlisted <;> by_cases h₂ : c.1 = a <;>
        simp only [h₁, h₂, hv, if_true, if_false, lt_irrefl, List.mem_cons] at h ⊢ <;> tauto

/-- A write keeps the canonical form. -/
theorem Memory.write_wf (m : Memory) (a : Nat) (v : Byte) (ha : a < Memory.size) (hm : Memory.wf m) :
    Memory.wf (m.write a v) := by
  refine ⟨?_, fun d hd => ?_⟩
  · induction m with
    | nil => unfold Memory.write; split <;> simp
    | cons c m ih =>
      obtain ⟨hp, hc⟩ := hm
      rw [List.pairwise_cons] at hp
      have hm' : Memory.wf m := ⟨hp.2, fun d hd => hc d (List.mem_cons_of_mem _ hd)⟩
      unfold Memory.write
      by_cases h₁ : c.1 < a
      · simp only [h₁, if_true, List.pairwise_cons]
        refine ⟨fun d hd => ?_, ih hm'⟩
        rcases Memory.mem_write m a v d hd with h | ⟨rfl, -⟩
        · exact hp.1 d h
        · exact h₁
      · have below : ∀ d ∈ (if c.1 = a then m else c :: m), a < d.1 := by
          intro d hd
          by_cases h₂ : c.1 = a
          · simp only [h₂, if_true] at hd
            exact h₂ ▸ hp.1 d hd
          · simp only [h₂, if_false, List.mem_cons] at hd
            rcases hd with rfl | hd
            · omega
            · have := hp.1 d hd; omega
        have rest : (if c.1 = a then m else c :: m).Pairwise (fun c d => c.1 < d.1) := by
          split
          · exact hp.2
          · exact List.pairwise_cons.2 hp
        simp only [h₁, if_false]
        by_cases hv : v = Memory.unlisted
        · simpa [hv] using rest
        · simpa only [hv, if_false] using List.pairwise_cons.2 ⟨below, rest⟩
  · rcases Memory.mem_write m a v d hd with h | ⟨rfl, hv⟩
    · exact hm.2 d h
    · exact ⟨ha, hv⟩

/-- Stored bytes leave every address outside them as it reads. -/
theorem Memory.read_writeBytes_outside (m : Memory) (a : Nat) (l : List Byte) (b : Nat) (h : b < a ∨ a + l.length ≤ b) :
    (m.writeBytes a l).read b = m.read b := by
  induction l generalizing m a with
  | nil => rfl
  | cons v l ih =>
    simp only [List.length_cons] at h
    rw [Memory.writeBytes, ih (m.write a v) (a + 1) (by omega), Memory.read_write_ne m a b v (by omega)]

/-- Storing bytes inside the address space keeps the canonical form. -/
theorem Memory.writeBytes_wf (m : Memory) (a : Nat) (l : List Byte) (ha : a + l.length ≤ Memory.size)
    (hm : Memory.wf m) : Memory.wf (m.writeBytes a l) := by
  induction l generalizing m a with
  | nil => exact hm
  | cons v l ih =>
    simp only [List.length_cons] at ha
    exact ih (m.write a v) (a + 1) (by omega) (Memory.write_wf m a v (by omega) hm)

/-- Stored bytes are read back, each at its place. -/
theorem Memory.read_writeBytes_inside (m : Memory) (a : Nat) (l : List Byte) (k : Nat) (hk : k < l.length)
    (ha : a + l.length ≤ Memory.size) (hm : Memory.wf m) : (m.writeBytes a l).read (a + k) = l[k] := by
  induction l generalizing m a k with
  | nil => simp at hk
  | cons v l ih =>
    simp only [List.length_cons] at ha hk
    have hw : Memory.wf (m.write a v) := Memory.write_wf m a v (by omega) hm
    rw [Memory.writeBytes]
    cases k with
    | zero =>
      rw [Memory.read_writeBytes_outside _ _ _ _ (by omega)]
      exact Memory.read_write_same m a v hm
    | succ k =>
      have := ih (m.write a v) (a + 1) k (by omega) (by omega) hw
      rw [show a + (k + 1) = a + 1 + k by omega, this]
      rfl

/-- The empty memory is canonical. -/
theorem Memory.wf_nil : Memory.wf [] := ⟨List.Pairwise.nil, fun _ h => absurd h List.not_mem_nil⟩

/-- The image reset builds is canonical for every admitted ROM. -/
theorem bootMemory_wf (cfg : Config) (rom : List Byte) (h : rom.length ≤ romMax) : Memory.wf (bootMemory cfg rom) := by
  have hf := cfg.fontBase.isLt
  have hp : progBase.toNat = 512 := rfl
  unfold romMax at h
  refine Memory.writeBytes_wf _ _ _ (by rw [hp]; unfold Memory.size; omega) (Memory.writeBytes_wf _ _ _ ?_ Memory.wf_nil)
  rw [Vector.length_toList]
  unfold Memory.size
  omega

end Sys2Proof.Machine
end

