-- ==== Sys2Proof/Laws/State.lean ====
section
/-! SUPPORT. One lemma per field per update: what each shared operation leaves in every field of State, so that no later proof unfolds a record update. -/

namespace Sys2Proof.Machine

/-! ### writeV -/

@[simp] theorem writeV_V (s : State) (i : RegIdx) (v : Byte) : (writeV s i v).V = s.V.set i v := rfl
@[simp] theorem writeV_I (s : State) (i : RegIdx) (v : Byte) : (writeV s i v).I = s.I := rfl
@[simp] theorem writeV_pc (s : State) (i : RegIdx) (v : Byte) : (writeV s i v).pc = s.pc := rfl
@[simp] theorem writeV_STACK (s : State) (i : RegIdx) (v : Byte) : (writeV s i v).STACK = s.STACK := rfl
@[simp] theorem writeV_SP (s : State) (i : RegIdx) (v : Byte) : (writeV s i v).SP = s.SP := rfl
@[simp] theorem writeV_DT (s : State) (i : RegIdx) (v : Byte) : (writeV s i v).DT = s.DT := rfl
@[simp] theorem writeV_ST (s : State) (i : RegIdx) (v : Byte) : (writeV s i v).ST = s.ST := rfl
@[simp] theorem writeV_FB (s : State) (i : RegIdx) (v : Byte) : (writeV s i v).FB = s.FB := rfl
@[simp] theorem writeV_KEYS (s : State) (i : RegIdx) (v : Byte) : (writeV s i v).KEYS = s.KEYS := rfl
@[simp] theorem writeV_MEM (s : State) (i : RegIdx) (v : Byte) : (writeV s i v).MEM = s.MEM := rfl
@[simp] theorem writeV_MODE (s : State) (i : RegIdx) (v : Byte) : (writeV s i v).MODE = s.MODE := rfl
@[simp] theorem writeV_CAUSE (s : State) (i : RegIdx) (v : Byte) : (writeV s i v).CAUSE = s.CAUSE := rfl
@[simp] theorem writeV_EPC (s : State) (i : RegIdx) (v : Byte) : (writeV s i v).EPC = s.EPC := rfl
@[simp] theorem writeV_EINSTR (s : State) (i : RegIdx) (v : Byte) : (writeV s i v).EINSTR = s.EINSTR := rfl
@[simp] theorem writeV_EADDR (s : State) (i : RegIdx) (v : Byte) : (writeV s i v).EADDR = s.EADDR := rfl
@[simp] theorem writeV_cfg (s : State) (i : RegIdx) (v : Byte) : (writeV s i v).cfg = s.cfg := rfl
@[simp] theorem writeV_inputs (s : State) (i : RegIdx) (v : Byte) : (writeV s i v).inputs = s.inputs := rfl
@[simp] theorem writeV_events (s : State) (i : RegIdx) (v : Byte) : (writeV s i v).events = s.events := rfl
@[simp] theorem writeV_draws (s : State) (i : RegIdx) (v : Byte) : (writeV s i v).draws = s.draws := rfl

/-! ### writeVF -/

@[simp] theorem writeVF_V (s : State) (f : Bool) : (writeVF s f).V = s.V.set 15 (flagByte f) := rfl
@[simp] theorem writeVF_I (s : State) (f : Bool) : (writeVF s f).I = s.I := rfl
@[simp] theorem writeVF_pc (s : State) (f : Bool) : (writeVF s f).pc = s.pc := rfl
@[simp] theorem writeVF_STACK (s : State) (f : Bool) : (writeVF s f).STACK = s.STACK := rfl
@[simp] theorem writeVF_SP (s : State) (f : Bool) : (writeVF s f).SP = s.SP := rfl
@[simp] theorem writeVF_DT (s : State) (f : Bool) : (writeVF s f).DT = s.DT := rfl
@[simp] theorem writeVF_ST (s : State) (f : Bool) : (writeVF s f).ST = s.ST := rfl
@[simp] theorem writeVF_FB (s : State) (f : Bool) : (writeVF s f).FB = s.FB := rfl
@[simp] theorem writeVF_KEYS (s : State) (f : Bool) : (writeVF s f).KEYS = s.KEYS := rfl
@[simp] theorem writeVF_MEM (s : State) (f : Bool) : (writeVF s f).MEM = s.MEM := rfl
@[simp] theorem writeVF_MODE (s : State) (f : Bool) : (writeVF s f).MODE = s.MODE := rfl
@[simp] theorem writeVF_CAUSE (s : State) (f : Bool) : (writeVF s f).CAUSE = s.CAUSE := rfl
@[simp] theorem writeVF_EPC (s : State) (f : Bool) : (writeVF s f).EPC = s.EPC := rfl
@[simp] theorem writeVF_EINSTR (s : State) (f : Bool) : (writeVF s f).EINSTR = s.EINSTR := rfl
@[simp] theorem writeVF_EADDR (s : State) (f : Bool) : (writeVF s f).EADDR = s.EADDR := rfl
@[simp] theorem writeVF_cfg (s : State) (f : Bool) : (writeVF s f).cfg = s.cfg := rfl
@[simp] theorem writeVF_inputs (s : State) (f : Bool) : (writeVF s f).inputs = s.inputs := rfl
@[simp] theorem writeVF_events (s : State) (f : Bool) : (writeVF s f).events = s.events := rfl
@[simp] theorem writeVF_draws (s : State) (f : Bool) : (writeVF s f).draws = s.draws := rfl

/-! ### writeResultAndFlag -/

@[simp] theorem writeResultAndFlag_V (s : State) (x : RegIdx) (v : Byte) (f : Bool) : (writeResultAndFlag s x v f).V = (s.V.set x v).set 15 (flagByte f) := rfl
@[simp] theorem writeResultAndFlag_I (s : State) (x : RegIdx) (v : Byte) (f : Bool) : (writeResultAndFlag s x v f).I = s.I := rfl
@[simp] theorem writeResultAndFlag_pc (s : State) (x : RegIdx) (v : Byte) (f : Bool) : (writeResultAndFlag s x v f).pc = s.pc := rfl
@[simp] theorem writeResultAndFlag_STACK (s : State) (x : RegIdx) (v : Byte) (f : Bool) : (writeResultAndFlag s x v f).STACK = s.STACK := rfl
@[simp] theorem writeResultAndFlag_SP (s : State) (x : RegIdx) (v : Byte) (f : Bool) : (writeResultAndFlag s x v f).SP = s.SP := rfl
@[simp] theorem writeResultAndFlag_DT (s : State) (x : RegIdx) (v : Byte) (f : Bool) : (writeResultAndFlag s x v f).DT = s.DT := rfl
@[simp] theorem writeResultAndFlag_ST (s : State) (x : RegIdx) (v : Byte) (f : Bool) : (writeResultAndFlag s x v f).ST = s.ST := rfl
@[simp] theorem writeResultAndFlag_FB (s : State) (x : RegIdx) (v : Byte) (f : Bool) : (writeResultAndFlag s x v f).FB = s.FB := rfl
@[simp] theorem writeResultAndFlag_KEYS (s : State) (x : RegIdx) (v : Byte) (f : Bool) : (writeResultAndFlag s x v f).KEYS = s.KEYS := rfl
@[simp] theorem writeResultAndFlag_MEM (s : State) (x : RegIdx) (v : Byte) (f : Bool) : (writeResultAndFlag s x v f).MEM = s.MEM := rfl
@[simp] theorem writeResultAndFlag_MODE (s : State) (x : RegIdx) (v : Byte) (f : Bool) : (writeResultAndFlag s x v f).MODE = s.MODE := rfl
@[simp] theorem writeResultAndFlag_CAUSE (s : State) (x : RegIdx) (v : Byte) (f : Bool) : (writeResultAndFlag s x v f).CAUSE = s.CAUSE := rfl
@[simp] theorem writeResultAndFlag_EPC (s : State) (x : RegIdx) (v : Byte) (f : Bool) : (writeResultAndFlag s x v f).EPC = s.EPC := rfl
@[simp] theorem writeResultAndFlag_EINSTR (s : State) (x : RegIdx) (v : Byte) (f : Bool) : (writeResultAndFlag s x v f).EINSTR = s.EINSTR := rfl
@[simp] theorem writeResultAndFlag_EADDR (s : State) (x : RegIdx) (v : Byte) (f : Bool) : (writeResultAndFlag s x v f).EADDR = s.EADDR := rfl
@[simp] theorem writeResultAndFlag_cfg (s : State) (x : RegIdx) (v : Byte) (f : Bool) : (writeResultAndFlag s x v f).cfg = s.cfg := rfl
@[simp] theorem writeResultAndFlag_inputs (s : State) (x : RegIdx) (v : Byte) (f : Bool) : (writeResultAndFlag s x v f).inputs = s.inputs := rfl
@[simp] theorem writeResultAndFlag_events (s : State) (x : RegIdx) (v : Byte) (f : Bool) : (writeResultAndFlag s x v f).events = s.events := rfl
@[simp] theorem writeResultAndFlag_draws (s : State) (x : RegIdx) (v : Byte) (f : Bool) : (writeResultAndFlag s x v f).draws = s.draws := rfl

/-! ### goto -/

@[simp] theorem goto_V (s : State) (t : Addr) : (goto s t).V = s.V := rfl
@[simp] theorem goto_I (s : State) (t : Addr) : (goto s t).I = s.I := rfl
@[simp] theorem goto_pc (s : State) (t : Addr) : (goto s t).pc = t := rfl
@[simp] theorem goto_STACK (s : State) (t : Addr) : (goto s t).STACK = s.STACK := rfl
@[simp] theorem goto_SP (s : State) (t : Addr) : (goto s t).SP = s.SP := rfl
@[simp] theorem goto_DT (s : State) (t : Addr) : (goto s t).DT = s.DT := rfl
@[simp] theorem goto_ST (s : State) (t : Addr) : (goto s t).ST = s.ST := rfl
@[simp] theorem goto_FB (s : State) (t : Addr) : (goto s t).FB = s.FB := rfl
@[simp] theorem goto_KEYS (s : State) (t : Addr) : (goto s t).KEYS = s.KEYS := rfl
@[simp] theorem goto_MEM (s : State) (t : Addr) : (goto s t).MEM = s.MEM := rfl
@[simp] theorem goto_MODE (s : State) (t : Addr) : (goto s t).MODE = .running := rfl
@[simp] theorem goto_CAUSE (s : State) (t : Addr) : (goto s t).CAUSE = s.CAUSE := rfl
@[simp] theorem goto_EPC (s : State) (t : Addr) : (goto s t).EPC = s.EPC := rfl
@[simp] theorem goto_EINSTR (s : State) (t : Addr) : (goto s t).EINSTR = s.EINSTR := rfl
@[simp] theorem goto_EADDR (s : State) (t : Addr) : (goto s t).EADDR = s.EADDR := rfl
@[simp] theorem goto_cfg (s : State) (t : Addr) : (goto s t).cfg = s.cfg := rfl
@[simp] theorem goto_inputs (s : State) (t : Addr) : (goto s t).inputs = s.inputs := rfl
@[simp] theorem goto_events (s : State) (t : Addr) : (goto s t).events = s.events := rfl
@[simp] theorem goto_draws (s : State) (t : Addr) : (goto s t).draws = s.draws := rfl

/-! ### advance -/

@[simp] theorem advance_V (s : State) : (advance s).V = s.V := rfl
@[simp] theorem advance_I (s : State) : (advance s).I = s.I := rfl
@[simp] theorem advance_pc (s : State) : (advance s).pc = s.pc + 2 := rfl
@[simp] theorem advance_STACK (s : State) : (advance s).STACK = s.STACK := rfl
@[simp] theorem advance_SP (s : State) : (advance s).SP = s.SP := rfl
@[simp] theorem advance_DT (s : State) : (advance s).DT = s.DT := rfl
@[simp] theorem advance_ST (s : State) : (advance s).ST = s.ST := rfl
@[simp] theorem advance_FB (s : State) : (advance s).FB = s.FB := rfl
@[simp] theorem advance_KEYS (s : State) : (advance s).KEYS = s.KEYS := rfl
@[simp] theorem advance_MEM (s : State) : (advance s).MEM = s.MEM := rfl
@[simp] theorem advance_MODE (s : State) : (advance s).MODE = .running := rfl
@[simp] theorem advance_CAUSE (s : State) : (advance s).CAUSE = s.CAUSE := rfl
@[simp] theorem advance_EPC (s : State) : (advance s).EPC = s.EPC := rfl
@[simp] theorem advance_EINSTR (s : State) : (advance s).EINSTR = s.EINSTR := rfl
@[simp] theorem advance_EADDR (s : State) : (advance s).EADDR = s.EADDR := rfl
@[simp] theorem advance_cfg (s : State) : (advance s).cfg = s.cfg := rfl
@[simp] theorem advance_inputs (s : State) : (advance s).inputs = s.inputs := rfl
@[simp] theorem advance_events (s : State) : (advance s).events = s.events := rfl
@[simp] theorem advance_draws (s : State) : (advance s).draws = s.draws := rfl

/-! ### skipIf -/

@[simp] theorem skipIf_V (s : State) (c : Bool) : (skipIf s c).V = s.V := by cases c <;> rfl
@[simp] theorem skipIf_I (s : State) (c : Bool) : (skipIf s c).I = s.I := by cases c <;> rfl
@[simp] theorem skipIf_pc (s : State) (c : Bool) : (skipIf s c).pc = if c then s.pc + 4 else s.pc + 2 := by cases c <;> rfl
@[simp] theorem skipIf_STACK (s : State) (c : Bool) : (skipIf s c).STACK = s.STACK := by cases c <;> rfl
@[simp] theorem skipIf_SP (s : State) (c : Bool) : (skipIf s c).SP = s.SP := by cases c <;> rfl
@[simp] theorem skipIf_DT (s : State) (c : Bool) : (skipIf s c).DT = s.DT := by cases c <;> rfl
@[simp] theorem skipIf_ST (s : State) (c : Bool) : (skipIf s c).ST = s.ST := by cases c <;> rfl
@[simp] theorem skipIf_FB (s : State) (c : Bool) : (skipIf s c).FB = s.FB := by cases c <;> rfl
@[simp] theorem skipIf_KEYS (s : State) (c : Bool) : (skipIf s c).KEYS = s.KEYS := by cases c <;> rfl
@[simp] theorem skipIf_MEM (s : State) (c : Bool) : (skipIf s c).MEM = s.MEM := by cases c <;> rfl
@[simp] theorem skipIf_MODE (s : State) (c : Bool) : (skipIf s c).MODE = .running := by cases c <;> rfl
@[simp] theorem skipIf_CAUSE (s : State) (c : Bool) : (skipIf s c).CAUSE = s.CAUSE := by cases c <;> rfl
@[simp] theorem skipIf_EPC (s : State) (c : Bool) : (skipIf s c).EPC = s.EPC := by cases c <;> rfl
@[simp] theorem skipIf_EINSTR (s : State) (c : Bool) : (skipIf s c).EINSTR = s.EINSTR := by cases c <;> rfl
@[simp] theorem skipIf_EADDR (s : State) (c : Bool) : (skipIf s c).EADDR = s.EADDR := by cases c <;> rfl
@[simp] theorem skipIf_cfg (s : State) (c : Bool) : (skipIf s c).cfg = s.cfg := by cases c <;> rfl
@[simp] theorem skipIf_inputs (s : State) (c : Bool) : (skipIf s c).inputs = s.inputs := by cases c <;> rfl
@[simp] theorem skipIf_events (s : State) (c : Bool) : (skipIf s c).events = s.events := by cases c <;> rfl
@[simp] theorem skipIf_draws (s : State) (c : Bool) : (skipIf s c).draws = s.draws := by cases c <;> rfl

/-! ### emit -/

@[simp] theorem emit_V (s : State) (e : Event) : (emit s e).V = s.V := rfl
@[simp] theorem emit_I (s : State) (e : Event) : (emit s e).I = s.I := rfl
@[simp] theorem emit_pc (s : State) (e : Event) : (emit s e).pc = s.pc := rfl
@[simp] theorem emit_STACK (s : State) (e : Event) : (emit s e).STACK = s.STACK := rfl
@[simp] theorem emit_SP (s : State) (e : Event) : (emit s e).SP = s.SP := rfl
@[simp] theorem emit_DT (s : State) (e : Event) : (emit s e).DT = s.DT := rfl
@[simp] theorem emit_ST (s : State) (e : Event) : (emit s e).ST = s.ST := rfl
@[simp] theorem emit_FB (s : State) (e : Event) : (emit s e).FB = s.FB := rfl
@[simp] theorem emit_KEYS (s : State) (e : Event) : (emit s e).KEYS = s.KEYS := rfl
@[simp] theorem emit_MEM (s : State) (e : Event) : (emit s e).MEM = s.MEM := rfl
@[simp] theorem emit_MODE (s : State) (e : Event) : (emit s e).MODE = s.MODE := rfl
@[simp] theorem emit_CAUSE (s : State) (e : Event) : (emit s e).CAUSE = s.CAUSE := rfl
@[simp] theorem emit_EPC (s : State) (e : Event) : (emit s e).EPC = s.EPC := rfl
@[simp] theorem emit_EINSTR (s : State) (e : Event) : (emit s e).EINSTR = s.EINSTR := rfl
@[simp] theorem emit_EADDR (s : State) (e : Event) : (emit s e).EADDR = s.EADDR := rfl
@[simp] theorem emit_cfg (s : State) (e : Event) : (emit s e).cfg = s.cfg := rfl
@[simp] theorem emit_inputs (s : State) (e : Event) : (emit s e).inputs = s.inputs := rfl
@[simp] theorem emit_events (s : State) (e : Event) : (emit s e).events = s.events ++ [e] := rfl
@[simp] theorem emit_draws (s : State) (e : Event) : (emit s e).draws = s.draws := rfl

/-! ### storeAtI -/

@[simp] theorem storeAtI_V (s : State) (l : List Byte) : (storeAtI s l).V = s.V := rfl
@[simp] theorem storeAtI_I (s : State) (l : List Byte) : (storeAtI s l).I = s.I := rfl
@[simp] theorem storeAtI_pc (s : State) (l : List Byte) : (storeAtI s l).pc = s.pc := rfl
@[simp] theorem storeAtI_STACK (s : State) (l : List Byte) : (storeAtI s l).STACK = s.STACK := rfl
@[simp] theorem storeAtI_SP (s : State) (l : List Byte) : (storeAtI s l).SP = s.SP := rfl
@[simp] theorem storeAtI_DT (s : State) (l : List Byte) : (storeAtI s l).DT = s.DT := rfl
@[simp] theorem storeAtI_ST (s : State) (l : List Byte) : (storeAtI s l).ST = s.ST := rfl
@[simp] theorem storeAtI_FB (s : State) (l : List Byte) : (storeAtI s l).FB = s.FB := rfl
@[simp] theorem storeAtI_KEYS (s : State) (l : List Byte) : (storeAtI s l).KEYS = s.KEYS := rfl
@[simp] theorem storeAtI_MEM (s : State) (l : List Byte) : (storeAtI s l).MEM = s.MEM.writeBytes s.I.toNat l := rfl
@[simp] theorem storeAtI_MODE (s : State) (l : List Byte) : (storeAtI s l).MODE = s.MODE := rfl
@[simp] theorem storeAtI_CAUSE (s : State) (l : List Byte) : (storeAtI s l).CAUSE = s.CAUSE := rfl
@[simp] theorem storeAtI_EPC (s : State) (l : List Byte) : (storeAtI s l).EPC = s.EPC := rfl
@[simp] theorem storeAtI_EINSTR (s : State) (l : List Byte) : (storeAtI s l).EINSTR = s.EINSTR := rfl
@[simp] theorem storeAtI_EADDR (s : State) (l : List Byte) : (storeAtI s l).EADDR = s.EADDR := rfl
@[simp] theorem storeAtI_cfg (s : State) (l : List Byte) : (storeAtI s l).cfg = s.cfg := rfl
@[simp] theorem storeAtI_inputs (s : State) (l : List Byte) : (storeAtI s l).inputs = s.inputs := rfl
@[simp] theorem storeAtI_events (s : State) (l : List Byte) : (storeAtI s l).events = s.events := rfl
@[simp] theorem storeAtI_draws (s : State) (l : List Byte) : (storeAtI s l).draws = s.draws := rfl

/-! ### loadThrough -/

@[simp] theorem loadThrough_I (s : State) (x : RegIdx) : (loadThrough s x).I = s.I := rfl
@[simp] theorem loadThrough_pc (s : State) (x : RegIdx) : (loadThrough s x).pc = s.pc := rfl
@[simp] theorem loadThrough_STACK (s : State) (x : RegIdx) : (loadThrough s x).STACK = s.STACK := rfl
@[simp] theorem loadThrough_SP (s : State) (x : RegIdx) : (loadThrough s x).SP = s.SP := rfl
@[simp] theorem loadThrough_DT (s : State) (x : RegIdx) : (loadThrough s x).DT = s.DT := rfl
@[simp] theorem loadThrough_ST (s : State) (x : RegIdx) : (loadThrough s x).ST = s.ST := rfl
@[simp] theorem loadThrough_FB (s : State) (x : RegIdx) : (loadThrough s x).FB = s.FB := rfl
@[simp] theorem loadThrough_KEYS (s : State) (x : RegIdx) : (loadThrough s x).KEYS = s.KEYS := rfl
@[simp] theorem loadThrough_MEM (s : State) (x : RegIdx) : (loadThrough s x).MEM = s.MEM := rfl
@[simp] theorem loadThrough_MODE (s : State) (x : RegIdx) : (loadThrough s x).MODE = s.MODE := rfl
@[simp] theorem loadThrough_CAUSE (s : State) (x : RegIdx) : (loadThrough s x).CAUSE = s.CAUSE := rfl
@[simp] theorem loadThrough_EPC (s : State) (x : RegIdx) : (loadThrough s x).EPC = s.EPC := rfl
@[simp] theorem loadThrough_EINSTR (s : State) (x : RegIdx) : (loadThrough s x).EINSTR = s.EINSTR := rfl
@[simp] theorem loadThrough_EADDR (s : State) (x : RegIdx) : (loadThrough s x).EADDR = s.EADDR := rfl
@[simp] theorem loadThrough_cfg (s : State) (x : RegIdx) : (loadThrough s x).cfg = s.cfg := rfl
@[simp] theorem loadThrough_inputs (s : State) (x : RegIdx) : (loadThrough s x).inputs = s.inputs := rfl
@[simp] theorem loadThrough_events (s : State) (x : RegIdx) : (loadThrough s x).events = s.events := rfl
@[simp] theorem loadThrough_draws (s : State) (x : RegIdx) : (loadThrough s x).draws = s.draws := rfl

/-! ### takeException -/

@[simp] theorem takeException_V (s : State) (e : Exc) : (takeException s e).V = s.V := rfl
@[simp] theorem takeException_I (s : State) (e : Exc) : (takeException s e).I = s.I := rfl
@[simp] theorem takeException_pc (s : State) (e : Exc) : (takeException s e).pc = s.pc := rfl
@[simp] theorem takeException_STACK (s : State) (e : Exc) : (takeException s e).STACK = s.STACK := rfl
@[simp] theorem takeException_SP (s : State) (e : Exc) : (takeException s e).SP = s.SP := rfl
@[simp] theorem takeException_DT (s : State) (e : Exc) : (takeException s e).DT = s.DT := rfl
@[simp] theorem takeException_ST (s : State) (e : Exc) : (takeException s e).ST = s.ST := rfl
@[simp] theorem takeException_FB (s : State) (e : Exc) : (takeException s e).FB = s.FB := rfl
@[simp] theorem takeException_KEYS (s : State) (e : Exc) : (takeException s e).KEYS = s.KEYS := rfl
@[simp] theorem takeException_MEM (s : State) (e : Exc) : (takeException s e).MEM = s.MEM := rfl
@[simp] theorem takeException_MODE (s : State) (e : Exc) : (takeException s e).MODE = .halted := rfl
@[simp] theorem takeException_CAUSE (s : State) (e : Exc) : (takeException s e).CAUSE = causeCode e := rfl
@[simp] theorem takeException_EPC (s : State) (e : Exc) : (takeException s e).EPC = s.pc := rfl
@[simp] theorem takeException_EINSTR (s : State) (e : Exc) : (takeException s e).EINSTR = excInstr s e := rfl
@[simp] theorem takeException_EADDR (s : State) (e : Exc) : (takeException s e).EADDR = excAddr s e := rfl
@[simp] theorem takeException_cfg (s : State) (e : Exc) : (takeException s e).cfg = s.cfg := rfl
@[simp] theorem takeException_inputs (s : State) (e : Exc) : (takeException s e).inputs = s.inputs := rfl
@[simp] theorem takeException_events (s : State) (e : Exc) : (takeException s e).events = s.events := rfl
@[simp] theorem takeException_draws (s : State) (e : Exc) : (takeException s e).draws = s.draws := rfl

/-! ### dataOutOfBounds -/

@[simp] theorem dataOutOfBounds_V (s : State) (w : Word) (k : Nat) : (dataOutOfBounds s w k).V = s.V := rfl
@[simp] theorem dataOutOfBounds_I (s : State) (w : Word) (k : Nat) : (dataOutOfBounds s w k).I = s.I := rfl
@[simp] theorem dataOutOfBounds_pc (s : State) (w : Word) (k : Nat) : (dataOutOfBounds s w k).pc = s.pc := rfl
@[simp] theorem dataOutOfBounds_STACK (s : State) (w : Word) (k : Nat) : (dataOutOfBounds s w k).STACK = s.STACK := rfl
@[simp] theorem dataOutOfBounds_SP (s : State) (w : Word) (k : Nat) : (dataOutOfBounds s w k).SP = s.SP := rfl
@[simp] theorem dataOutOfBounds_DT (s : State) (w : Word) (k : Nat) : (dataOutOfBounds s w k).DT = s.DT := rfl
@[simp] theorem dataOutOfBounds_ST (s : State) (w : Word) (k : Nat) : (dataOutOfBounds s w k).ST = s.ST := rfl
@[simp] theorem dataOutOfBounds_FB (s : State) (w : Word) (k : Nat) : (dataOutOfBounds s w k).FB = s.FB := rfl
@[simp] theorem dataOutOfBounds_KEYS (s : State) (w : Word) (k : Nat) : (dataOutOfBounds s w k).KEYS = s.KEYS := rfl
@[simp] theorem dataOutOfBounds_MEM (s : State) (w : Word) (k : Nat) : (dataOutOfBounds s w k).MEM = s.MEM := rfl
@[simp] theorem dataOutOfBounds_MODE (s : State) (w : Word) (k : Nat) : (dataOutOfBounds s w k).MODE = .halted := rfl
@[simp] theorem dataOutOfBounds_CAUSE (s : State) (w : Word) (k : Nat) : (dataOutOfBounds s w k).CAUSE = 5 := rfl
@[simp] theorem dataOutOfBounds_EPC (s : State) (w : Word) (k : Nat) : (dataOutOfBounds s w k).EPC = s.pc := rfl
@[simp] theorem dataOutOfBounds_EINSTR (s : State) (w : Word) (k : Nat) : (dataOutOfBounds s w k).EINSTR = w := rfl
@[simp] theorem dataOutOfBounds_EADDR (s : State) (w : Word) (k : Nat) : (dataOutOfBounds s w k).EADDR = BitVec.ofNat 13 (effectiveAddr s k) := rfl
@[simp] theorem dataOutOfBounds_cfg (s : State) (w : Word) (k : Nat) : (dataOutOfBounds s w k).cfg = s.cfg := rfl
@[simp] theorem dataOutOfBounds_inputs (s : State) (w : Word) (k : Nat) : (dataOutOfBounds s w k).inputs = s.inputs := rfl
@[simp] theorem dataOutOfBounds_events (s : State) (w : Word) (k : Nat) : (dataOutOfBounds s w k).events = s.events := rfl
@[simp] theorem dataOutOfBounds_draws (s : State) (w : Word) (k : Nat) : (dataOutOfBounds s w k).draws = s.draws := rfl

/-! ### tick -/

@[simp] theorem tick_V (s : State) : (tick s).V = s.V := rfl
@[simp] theorem tick_I (s : State) : (tick s).I = s.I := rfl
@[simp] theorem tick_pc (s : State) : (tick s).pc = s.pc := rfl
@[simp] theorem tick_STACK (s : State) : (tick s).STACK = s.STACK := rfl
@[simp] theorem tick_SP (s : State) : (tick s).SP = s.SP := rfl
@[simp] theorem tick_DT (s : State) : (tick s).DT = countDown s.DT := rfl
@[simp] theorem tick_ST (s : State) : (tick s).ST = countDown s.ST := rfl
@[simp] theorem tick_FB (s : State) : (tick s).FB = s.FB := rfl
@[simp] theorem tick_KEYS (s : State) : (tick s).KEYS = s.KEYS := rfl
@[simp] theorem tick_MEM (s : State) : (tick s).MEM = s.MEM := rfl
@[simp] theorem tick_MODE (s : State) : (tick s).MODE = s.MODE := rfl
@[simp] theorem tick_CAUSE (s : State) : (tick s).CAUSE = s.CAUSE := rfl
@[simp] theorem tick_EPC (s : State) : (tick s).EPC = s.EPC := rfl
@[simp] theorem tick_EINSTR (s : State) : (tick s).EINSTR = s.EINSTR := rfl
@[simp] theorem tick_EADDR (s : State) : (tick s).EADDR = s.EADDR := rfl
@[simp] theorem tick_cfg (s : State) : (tick s).cfg = s.cfg := rfl
@[simp] theorem tick_inputs (s : State) : (tick s).inputs = s.inputs := rfl
@[simp] theorem tick_events (s : State) : (tick s).events = s.events := rfl
@[simp] theorem tick_draws (s : State) : (tick s).draws = s.draws := rfl

/-! ### keyWrite -/

@[simp] theorem keyWrite_V (s : State) (k : Key) (b : Bool) : (keyWrite s k b).V = s.V := rfl
@[simp] theorem keyWrite_I (s : State) (k : Key) (b : Bool) : (keyWrite s k b).I = s.I := rfl
@[simp] theorem keyWrite_pc (s : State) (k : Key) (b : Bool) : (keyWrite s k b).pc = s.pc := rfl
@[simp] theorem keyWrite_STACK (s : State) (k : Key) (b : Bool) : (keyWrite s k b).STACK = s.STACK := rfl
@[simp] theorem keyWrite_SP (s : State) (k : Key) (b : Bool) : (keyWrite s k b).SP = s.SP := rfl
@[simp] theorem keyWrite_DT (s : State) (k : Key) (b : Bool) : (keyWrite s k b).DT = s.DT := rfl
@[simp] theorem keyWrite_ST (s : State) (k : Key) (b : Bool) : (keyWrite s k b).ST = s.ST := rfl
@[simp] theorem keyWrite_FB (s : State) (k : Key) (b : Bool) : (keyWrite s k b).FB = s.FB := rfl
@[simp] theorem keyWrite_KEYS (s : State) (k : Key) (b : Bool) : (keyWrite s k b).KEYS = s.KEYS.set k b := rfl
@[simp] theorem keyWrite_MEM (s : State) (k : Key) (b : Bool) : (keyWrite s k b).MEM = s.MEM := rfl
@[simp] theorem keyWrite_MODE (s : State) (k : Key) (b : Bool) : (keyWrite s k b).MODE = s.MODE := rfl
@[simp] theorem keyWrite_CAUSE (s : State) (k : Key) (b : Bool) : (keyWrite s k b).CAUSE = s.CAUSE := rfl
@[simp] theorem keyWrite_EPC (s : State) (k : Key) (b : Bool) : (keyWrite s k b).EPC = s.EPC := rfl
@[simp] theorem keyWrite_EINSTR (s : State) (k : Key) (b : Bool) : (keyWrite s k b).EINSTR = s.EINSTR := rfl
@[simp] theorem keyWrite_EADDR (s : State) (k : Key) (b : Bool) : (keyWrite s k b).EADDR = s.EADDR := rfl
@[simp] theorem keyWrite_cfg (s : State) (k : Key) (b : Bool) : (keyWrite s k b).cfg = s.cfg := rfl
@[simp] theorem keyWrite_inputs (s : State) (k : Key) (b : Bool) : (keyWrite s k b).inputs = s.inputs := rfl
@[simp] theorem keyWrite_events (s : State) (k : Key) (b : Bool) : (keyWrite s k b).events = s.events := rfl
@[simp] theorem keyWrite_draws (s : State) (k : Key) (b : Bool) : (keyWrite s k b).draws = s.draws := rfl

end Sys2Proof.Machine
end

