-- ==== Sys2Proof/Laws/Ops.lean ====
section
/-! SUPPORT. One lemma per shared operation that says once everything it can do; later proofs cite it and do not unfold. -/

namespace Sys2Proof.Machine

/-! ## Registers -/

@[simp] theorem readV_writeV (s : State) (i j : RegIdx) (v : Byte) :
    readV (writeV s i v) j = if j = i then v else readV s j := by
  simp only [readV, writeV, Fin.getElem_fin, Vector.getElem_set, Fin.ext_iff, eq_comm]

@[simp] theorem readV_writeVF (s : State) (j : RegIdx) (f : Bool) :
    readV (writeVF s f) j = if j = 15 then flagByte f else readV s j := readV_writeV s 15 j _

/-- The flag is written last, so it is what register 15 holds whatever x is (41_register_alu.md R153). -/
@[simp] theorem readV_writeResultAndFlag (s : State) (x j : RegIdx) (v : Byte) (f : Bool) :
    readV (writeResultAndFlag s x v f) j = if j = 15 then flagByte f else if j = x then v else readV s j := by
  simp only [writeResultAndFlag, readV_writeVF, readV_writeV]

@[simp] theorem readV_goto (s : State) (t : Addr) (j : RegIdx) : readV (goto s t) j = readV s j := rfl
@[simp] theorem readV_advance (s : State) (j : RegIdx) : readV (advance s) j = readV s j := rfl
@[simp] theorem readV_emit (s : State) (e : Event) (j : RegIdx) : readV (emit s e) j = readV s j := rfl
@[simp] theorem readV_storeAtI (s : State) (l : List Byte) (j : RegIdx) : readV (storeAtI s l) j = readV s j := rfl
@[simp] theorem readV_takeException (s : State) (e : Exc) (j : RegIdx) : readV (takeException s e) j = readV s j := rfl
@[simp] theorem readV_skipIf (s : State) (c : Bool) (j : RegIdx) : readV (skipIf s c) j = readV s j := by
  cases c <;> rfl

@[simp] theorem flagByte_toNat (b : Bool) : (flagByte b).toNat = if b then 1 else 0 := by cases b <;> rfl

/-- A fold that sets entry i of a vector for some of the indices of a list without repeats. -/
theorem foldl_set_get {α : Type} (p : Fin 16 → Bool) (f : Fin 16 → α) (l : List (Fin 16)) (hl : l.Nodup) (v : Vector α 16)
    (j : Fin 16) :
    (l.foldl (fun v i => if p i then v.set i (f i) else v) v)[j] = if j ∈ l ∧ p j then f j else v[j] := by
  induction l generalizing v with
  | nil => simp
  | cons i l ih =>
    rw [List.nodup_cons] at hl
    rw [List.foldl_cons, ih hl.2]
    by_cases hj : j ∈ l ∧ p j
    · simp [hj]
    · by_cases hi : j = i
      · subst hi
        by_cases hp : p j <;> simp [hl.1, hp]
      · have hne : i.val ≠ j.val := fun h => hi (Fin.ext h.symm)
        by_cases hp : p i <;> simp [hj, hi, hp, hne]

/-- FX65's transfer: the registers up to x receive the bytes at I, the others keep theirs. -/
theorem readV_loadThrough (s : State) (x j : RegIdx) :
    readV (loadThrough s x) j = if j ≤ x then readAtI s j.val else readV s j := by
  have h := foldl_set_get (fun i => decide (i ≤ x)) (fun i => readAtI s i.val) (List.finRange 16)
    (List.nodup_finRange 16) s.V j
  simpa [readV, loadThrough] using h

@[simp] theorem registersThrough_length (s : State) (x : RegIdx) : (registersThrough s x).length = x.val + 1 := by
  simp [registersThrough]

/-- FX55's bytes are V[0] to V[x] in order. -/
theorem registersThrough_get (s : State) (x j : RegIdx) (h : j.val < (registersThrough s x).length) :
    (registersThrough s x)[j.val] = readV s j := by
  simp [registersThrough, readV]

/-! ## The program counter -/

theorem advance_goesOn (s : State) : (advance s).pc.toNat = (s.pc.toNat + 2) % 4096 := by
  simp [BitVec.toNat_add]

theorem skipIf_pc_toNat (s : State) (c : Bool) :
    (skipIf s c).pc.toNat = (s.pc.toNat + if c then 4 else 2) % 4096 := by
  cases c <;> simp [BitVec.toNat_add]

/-! ## The call stack -/

/-- Push answers unless 16 entries are in use; then the new entry is v at the old SP, and nothing else differs. -/
theorem push_spec (s : State) (v : Addr) :
    (s.SP.val = 16 ∧ push s v = none) ∨
      ∃ (h : s.SP.val < 16) (k : Fin 17), k.val = s.SP.val + 1 ∧
        push s v = some { s with STACK := s.STACK.set s.SP.val v h, SP := k } := by
  by_cases h : s.SP.val < 16
  · exact .inr ⟨h, ⟨s.SP.val + 1, by omega⟩, rfl, by simp [push, h]⟩
  · have := s.SP.isLt
    exact .inl ⟨by omega, by simp [push, h]⟩

/-- Pop answers unless the stack is empty; then it gives the newest entry, and only SP differs. -/
theorem pop_spec (s : State) :
    (s.SP.val = 0 ∧ pop s = none) ∨
      ∃ (h : 0 < s.SP.val) (k : Fin 17), k.val + 1 = s.SP.val ∧
        pop s = some (s.STACK[s.SP.val - 1], { s with SP := k }) := by
  by_cases h : 0 < s.SP.val
  · exact .inr ⟨h, ⟨s.SP.val - 1, by omega⟩, by simp only; omega, by simp [pop, h]⟩
  · exact .inl ⟨by omega, by simp [pop, h]⟩

/-! ## Addresses and memory -/

theorem beyondMemory_iff (s : State) (k : Nat) : beyondMemory s k = true ↔ 0xFFF < s.I.toNat + k := by
  simp [beyondMemory, effectiveAddr]

/-- The recorded address is the unwrapped sum: 13 bits hold it for every k an instruction uses. -/
theorem excAddr_toNat (s : State) (k : Nat) (h : k ≤ 15) :
    (BitVec.ofNat 13 (effectiveAddr s k)).toNat = s.I.toNat + k := by
  have := s.I.isLt
  simp only [effectiveAddr, BitVec.toNat_ofNat]
  exact Nat.mod_eq_of_lt (by omega)

/-- FX33 and FX55's transfer: the bytes lie at I upward and everything outside them reads as before. -/
theorem storeAtI_read (s : State) (l : List Byte) (hm : Memory.wf s.MEM) (hb : s.I.toNat + l.length ≤ 4096) :
    (∀ k (hk : k < l.length), (storeAtI s l).MEM.read (s.I.toNat + k) = l[k]) ∧
      ∀ b, b < s.I.toNat ∨ s.I.toNat + l.length ≤ b → (storeAtI s l).MEM.read b = s.MEM.read b := by
  simp only [storeAtI_MEM]
  exact ⟨fun k hk => Memory.read_writeBytes_inside _ _ _ k hk hb hm, fun b => Memory.read_writeBytes_outside _ _ _ b⟩

theorem storeAtI_wf (s : State) (l : List Byte) (hm : Memory.wf s.MEM) (hb : s.I.toNat + l.length ≤ 4096) :
    Memory.wf (storeAtI s l).MEM := by
  simpa only [storeAtI_MEM] using Memory.writeBytes_wf _ _ _ hb hm

/-! ## Keys and glyphs -/

@[simp] theorem keyDown_keyWrite (s : State) (k j : Key) (b : Bool) :
    keyDown (keyWrite s k b) j = if j = k then b else keyDown s j := by
  simp only [keyDown, keyWrite, Fin.getElem_fin, Vector.getElem_set, Fin.ext_iff, eq_comm]

theorem mem_pressedKeys (s : State) (k : Key) : k ∈ pressedKeys s ↔ keyDown s k = true := by
  simp [pressedKeys]

/-- The pressed keys are listed in rising order, so the first is the lowest. -/
theorem pressedKeys_sorted (s : State) : (pressedKeys s).Pairwise (· < ·) :=
  (List.pairwise_lt_finRange 16).filter _

/-- KEY_SELECT answers one of the pressed keys, whatever the choice function is. -/
theorem selectKey_mem (sel : KeySelect) (k : Key) (ks : List Key) : selectKey sel k ks ∈ k :: ks := by
  unfold selectKey
  split
  · exact List.mem_cons_self
  · split
    · assumption
    · exact List.mem_cons_self

theorem lowNibble_val (v : Byte) : (lowNibble v).val = v.toNat % 16 := by
  simp [lowNibble]

theorem glyphAddr_toNat (cfg : Config) (d : Fin 16) : (glyphAddr cfg d).toNat = cfg.fontBase.val + 5 * d.val := by
  have := cfg.fontBase.isLt
  simp only [glyphAddr, BitVec.toNat_ofNat]
  exact Nat.mod_eq_of_lt (by omega)

end Sys2Proof.Machine
end

