-- ==== Sys2Proof/Laws/PerInstr.lean ====
section
/-! SUPPORT. One lemma per constructor: the word the encoder gives an instruction matches the mask and value of the instruction's own row of 30_encoding.md R96. -/

namespace Sys2Proof.Laws

/-- A word agrees with a row's pattern in bits 15 down to 0 when it does so bit by bit. -/
theorem word_ext (a b : Word) (h : ∀ i : Fin 16, a.getLsbD i.val = b.getLsbD i.val) : a = b :=
  BitVec.eq_of_getLsbD_eq fun i hi => h ⟨i, hi⟩

theorem wordNNN_bit (op : BitVec 4) (nnn : Addr) (i : Nat) :
    (wordNNN op nnn).getLsbD i = if i < 12 then nnn.getLsbD i else op.getLsbD (i - 12) := BitVec.getLsbD_append

theorem wordXNN_bit (op : BitVec 4) (x : RegIdx) (nn : Byte) (i : Nat) :
    (wordXNN op x nn).getLsbD i = if i < 8 then nn.getLsbD i else
      if i - 8 < 4 then (BitVec.ofFin (w := 4) x).getLsbD (i - 8) else op.getLsbD (i - 8 - 4) := by
  rw [wordXNN, BitVec.getLsbD_append, BitVec.getLsbD_append]

theorem wordXYN_bit (op : BitVec 4) (x y : RegIdx) (n : BitVec 4) (i : Nat) :
    (wordXYN op x y n).getLsbD i = if i < 4 then n.getLsbD i else
      if i - 4 < 4 then (BitVec.ofFin (w := 4) y).getLsbD (i - 4) else
      if i - 4 - 4 < 4 then (BitVec.ofFin (w := 4) x).getLsbD (i - 4 - 4) else op.getLsbD (i - 4 - 4 - 4) := by
  rw [wordXYN, BitVec.getLsbD_append, BitVec.getLsbD_append, BitVec.getLsbD_append]

/-- Format NNN under a mask of the opcode nibble. -/
theorem wordNNN_op (op : BitVec 4) (nnn : Addr) : wordNNN op nnn &&& 0xF000#16 = wordNNN op 0 := by
  apply word_ext
  intro i
  rw [BitVec.getLsbD_and, wordNNN_bit, wordNNN_bit]
  fin_cases i <;> simp

/-- Format XNN under a mask of the opcode nibble. -/
theorem wordXNN_op (op : BitVec 4) (x : RegIdx) (nn : Byte) : wordXNN op x nn &&& 0xF000#16 = wordXNN op 0 0 := by
  apply word_ext
  intro i
  rw [BitVec.getLsbD_and, wordXNN_bit, wordXNN_bit]
  fin_cases i <;> simp

/-- Format X under a mask of the opcode nibble and the low byte. -/
theorem wordXNN_op_nn (op : BitVec 4) (x : RegIdx) (nn : Byte) :
    wordXNN op x nn &&& 0xF0FF#16 = wordXNN op 0 nn := by
  apply word_ext
  intro i
  rw [BitVec.getLsbD_and, wordXNN_bit, wordXNN_bit]
  fin_cases i <;> simp

/-- Format XYN under a mask of the opcode nibble and the low nibble. -/
theorem wordXYN_op_n (op : BitVec 4) (x y : RegIdx) (n : BitVec 4) :
    wordXYN op x y n &&& 0xF00F#16 = wordXYN op 0 0 n := by
  apply word_ext
  intro i
  rw [BitVec.getLsbD_and, wordXYN_bit, wordXYN_bit]
  fin_cases i <;> simp

/-- Format XYN under a mask of the opcode nibble. -/
theorem wordXYN_op (op : BitVec 4) (x y : RegIdx) (n : BitVec 4) :
    wordXYN op x y n &&& 0xF000#16 = wordXYN op 0 0 0 := by
  apply word_ext
  intro i
  rw [BitVec.getLsbD_and, wordXYN_bit, wordXYN_bit]
  fin_cases i <;> simp

/-- The mask and the value of an instruction's row (R96). -/
def EncodeMatches.pattern : Instr → Word × Word
  | .cls => (0xFFFF#16, 0x00E0#16)
  | .ret => (0xFFFF#16, 0x00EE#16)
  | .sys _ => (0xF000#16, 0x0000#16)
  | .jp _ => (0xF000#16, 0x1000#16)
  | .call _ => (0xF000#16, 0x2000#16)
  | .seVxNn _ _ => (0xF000#16, 0x3000#16)
  | .sneVxNn _ _ => (0xF000#16, 0x4000#16)
  | .seVxVy _ _ => (0xF00F#16, 0x5000#16)
  | .ldVxNn _ _ => (0xF000#16, 0x6000#16)
  | .addVxNn _ _ => (0xF000#16, 0x7000#16)
  | .ldVxVy _ _ => (0xF00F#16, 0x8000#16)
  | .orVxVy _ _ => (0xF00F#16, 0x8001#16)
  | .andVxVy _ _ => (0xF00F#16, 0x8002#16)
  | .xorVxVy _ _ => (0xF00F#16, 0x8003#16)
  | .addVxVy _ _ => (0xF00F#16, 0x8004#16)
  | .subVxVy _ _ => (0xF00F#16, 0x8005#16)
  | .shrVx _ _ => (0xF00F#16, 0x8006#16)
  | .subnVxVy _ _ => (0xF00F#16, 0x8007#16)
  | .shlVx _ _ => (0xF00F#16, 0x800E#16)
  | .sneVxVy _ _ => (0xF00F#16, 0x9000#16)
  | .ldINnn _ => (0xF000#16, 0xA000#16)
  | .jpV0Nnn _ => (0xF000#16, 0xB000#16)
  | .rndVxNn _ _ => (0xF000#16, 0xC000#16)
  | .drwVxVyN _ _ _ => (0xF000#16, 0xD000#16)
  | .skpVx _ => (0xF0FF#16, 0xE09E#16)
  | .sknpVx _ => (0xF0FF#16, 0xE0A1#16)
  | .ldVxDt _ => (0xF0FF#16, 0xF007#16)
  | .ldVxK _ => (0xF0FF#16, 0xF00A#16)
  | .ldDtVx _ => (0xF0FF#16, 0xF015#16)
  | .ldStVx _ => (0xF0FF#16, 0xF018#16)
  | .addIVx _ => (0xF0FF#16, 0xF01E#16)
  | .ldFVx _ => (0xF0FF#16, 0xF029#16)
  | .ldBVx _ => (0xF0FF#16, 0xF033#16)
  | .ldMemVx _ => (0xF0FF#16, 0xF055#16)
  | .ldVxMem _ => (0xF0FF#16, 0xF065#16)

/-- The encoded word matches the row's pattern. -/
def EncodeMatches.Statement (i : Instr) : Prop :=
  encode i &&& (EncodeMatches.pattern i).1 = (EncodeMatches.pattern i).2

theorem EncodeMatches.cls : EncodeMatches.Statement .cls := by unfold EncodeMatches.Statement; decide
theorem EncodeMatches.ret : EncodeMatches.Statement .ret := by unfold EncodeMatches.Statement; decide
theorem EncodeMatches.sys (nnn : Addr) : EncodeMatches.Statement (.sys nnn) := (wordNNN_op _ nnn).trans rfl
theorem EncodeMatches.jp (nnn : Addr) : EncodeMatches.Statement (.jp nnn) := (wordNNN_op _ nnn).trans rfl
theorem EncodeMatches.call (nnn : Addr) : EncodeMatches.Statement (.call nnn) := (wordNNN_op _ nnn).trans rfl
theorem EncodeMatches.seVxNn (x : RegIdx) (nn : Byte) : EncodeMatches.Statement (.seVxNn x nn) := (wordXNN_op _ x nn).trans rfl
theorem EncodeMatches.sneVxNn (x : RegIdx) (nn : Byte) : EncodeMatches.Statement (.sneVxNn x nn) := (wordXNN_op _ x nn).trans rfl
theorem EncodeMatches.seVxVy (x : RegIdx) (y : RegIdx) : EncodeMatches.Statement (.seVxVy x y) := (wordXYN_op_n _ x y _).trans rfl
theorem EncodeMatches.ldVxNn (x : RegIdx) (nn : Byte) : EncodeMatches.Statement (.ldVxNn x nn) := (wordXNN_op _ x nn).trans rfl
theorem EncodeMatches.addVxNn (x : RegIdx) (nn : Byte) : EncodeMatches.Statement (.addVxNn x nn) := (wordXNN_op _ x nn).trans rfl
theorem EncodeMatches.ldVxVy (x : RegIdx) (y : RegIdx) : EncodeMatches.Statement (.ldVxVy x y) := (wordXYN_op_n _ x y _).trans rfl
theorem EncodeMatches.orVxVy (x : RegIdx) (y : RegIdx) : EncodeMatches.Statement (.orVxVy x y) := (wordXYN_op_n _ x y _).trans rfl
theorem EncodeMatches.andVxVy (x : RegIdx) (y : RegIdx) : EncodeMatches.Statement (.andVxVy x y) := (wordXYN_op_n _ x y _).trans rfl
theorem EncodeMatches.xorVxVy (x : RegIdx) (y : RegIdx) : EncodeMatches.Statement (.xorVxVy x y) := (wordXYN_op_n _ x y _).trans rfl
theorem EncodeMatches.addVxVy (x : RegIdx) (y : RegIdx) : EncodeMatches.Statement (.addVxVy x y) := (wordXYN_op_n _ x y _).trans rfl
theorem EncodeMatches.subVxVy (x : RegIdx) (y : RegIdx) : EncodeMatches.Statement (.subVxVy x y) := (wordXYN_op_n _ x y _).trans rfl
theorem EncodeMatches.shrVx (x : RegIdx) (y : RegIdx) : EncodeMatches.Statement (.shrVx x y) := (wordXYN_op_n _ x y _).trans rfl
theorem EncodeMatches.subnVxVy (x : RegIdx) (y : RegIdx) : EncodeMatches.Statement (.subnVxVy x y) := (wordXYN_op_n _ x y _).trans rfl
theorem EncodeMatches.shlVx (x : RegIdx) (y : RegIdx) : EncodeMatches.Statement (.shlVx x y) := (wordXYN_op_n _ x y _).trans rfl
theorem EncodeMatches.sneVxVy (x : RegIdx) (y : RegIdx) : EncodeMatches.Statement (.sneVxVy x y) := (wordXYN_op_n _ x y _).trans rfl
theorem EncodeMatches.ldINnn (nnn : Addr) : EncodeMatches.Statement (.ldINnn nnn) := (wordNNN_op _ nnn).trans rfl
theorem EncodeMatches.jpV0Nnn (nnn : Addr) : EncodeMatches.Statement (.jpV0Nnn nnn) := (wordNNN_op _ nnn).trans rfl
theorem EncodeMatches.rndVxNn (x : RegIdx) (nn : Byte) : EncodeMatches.Statement (.rndVxNn x nn) := (wordXNN_op _ x nn).trans rfl
theorem EncodeMatches.drwVxVyN (x : RegIdx) (y : RegIdx) (n : BitVec 4) : EncodeMatches.Statement (.drwVxVyN x y n) := (wordXYN_op _ x y n).trans rfl
theorem EncodeMatches.skpVx (x : RegIdx) : EncodeMatches.Statement (.skpVx x) := (wordXNN_op_nn _ x _).trans rfl
theorem EncodeMatches.sknpVx (x : RegIdx) : EncodeMatches.Statement (.sknpVx x) := (wordXNN_op_nn _ x _).trans rfl
theorem EncodeMatches.ldVxDt (x : RegIdx) : EncodeMatches.Statement (.ldVxDt x) := (wordXNN_op_nn _ x _).trans rfl
theorem EncodeMatches.ldVxK (x : RegIdx) : EncodeMatches.Statement (.ldVxK x) := (wordXNN_op_nn _ x _).trans rfl
theorem EncodeMatches.ldDtVx (x : RegIdx) : EncodeMatches.Statement (.ldDtVx x) := (wordXNN_op_nn _ x _).trans rfl
theorem EncodeMatches.ldStVx (x : RegIdx) : EncodeMatches.Statement (.ldStVx x) := (wordXNN_op_nn _ x _).trans rfl
theorem EncodeMatches.addIVx (x : RegIdx) : EncodeMatches.Statement (.addIVx x) := (wordXNN_op_nn _ x _).trans rfl
theorem EncodeMatches.ldFVx (x : RegIdx) : EncodeMatches.Statement (.ldFVx x) := (wordXNN_op_nn _ x _).trans rfl
theorem EncodeMatches.ldBVx (x : RegIdx) : EncodeMatches.Statement (.ldBVx x) := (wordXNN_op_nn _ x _).trans rfl
theorem EncodeMatches.ldMemVx (x : RegIdx) : EncodeMatches.Statement (.ldMemVx x) := (wordXNN_op_nn _ x _).trans rfl
theorem EncodeMatches.ldVxMem (x : RegIdx) : EncodeMatches.Statement (.ldVxMem x) := (wordXNN_op_nn _ x _).trans rfl

end Sys2Proof.Laws
end

