-- ==== Sys2Proof/Laws/Sprite.lean ====
section
/-! SUPPORT. What the sprite engine does, cell by cell: the two loops of 43_display.md R182 flip each cell a 1 pixel lands on, once (R183 a), and the collision is a flipped cell that was on. -/

namespace Sys2Proof.Machine

theorem pixel_flipPixel (fb : Screen) (r r' : Fin 32) (c c' : Fin 64) :
    pixel (flipPixel fb r c) r' c' = (pixel fb r' c' ^^ decide (r' = r ∧ c' = c)) := by
  by_cases hr : r' = r
  · subst hr
    simp [pixel, flipPixel, Fin.ext_iff, eq_comm]
  · have : r.val ≠ r'.val := fun h => hr (Fin.ext h.symm)
    simp [pixel, flipPixel, hr, this]

/-- Two framebuffers with the same cells are the same. -/
theorem screen_ext (a b : Screen) (h : ∀ r c, pixel a r c = pixel b r c) : a = b := by
  apply Vector.ext
  intro i hi
  apply BitVec.eq_of_getLsbD_eq
  intro j hj
  exact h ⟨i, hi⟩ ⟨j, hj⟩

/-- The cells a sprite's 1 pixels land on, in the order the loops reach them. -/
def spriteCells (x0 y0 n : Nat) (bytes : Nat → Byte) : List (Fin 32 × Fin 64) :=
  (List.range n).flatMap fun r =>
    ((List.range 8).filter (spriteBit (bytes r))).map fun c => (Fin.ofNat 32 (y0 + r), Fin.ofNat 64 (x0 + c))

theorem foldl_if_eq_filter {α β : Type} (p : α → Bool) (f : β → α → β) (l : List α) (b : β) :
    l.foldl (fun acc a => if p a then f acc a else acc) b = (l.filter p).foldl f b := by
  induction l generalizing b with
  | nil => rfl
  | cons a l ih => by_cases h : p a <;> simp [h, ih]

/-- The two loops are one pass over the sprite's cells. -/
theorem blitSprite_eq_cells (fb : Screen) (x0 y0 n : Nat) (bytes : Nat → Byte) :
    blitSprite fb x0 y0 n bytes =
      (spriteCells x0 y0 n bytes).foldl (fun acc p => blitPixel acc p.1 p.2) (fb, false) := by
  simp only [blitSprite, blitRow, spriteCells, List.foldl_flatMap, List.foldl_map, foldl_if_eq_filter]

theorem mem_spriteCells (x0 y0 n : Nat) (bytes : Nat → Byte) (row : Fin 32) (col : Fin 64) :
    (row, col) ∈ spriteCells x0 y0 n bytes ↔
      ∃ r c, r < n ∧ c < 8 ∧ row.val = (y0 + r) % 32 ∧ col.val = (x0 + c) % 64 ∧ spriteBit (bytes r) c = true := by
  simp only [spriteCells, List.mem_flatMap, List.mem_map, List.mem_filter, List.mem_range, Prod.mk.injEq, Fin.ext_iff,
    Fin.val_ofNat]
  constructor
  · rintro ⟨r, hr, c, ⟨hc, hb⟩, h₁, h₂⟩
    exact ⟨r, c, hr, hc, h₁.symm, h₂.symm, hb⟩
  · rintro ⟨r, c, hr, hc, h₁, h₂, hb⟩
    exact ⟨r, hr, c, ⟨hc, hb⟩, h₁.symm, h₂.symm⟩

/-- No cell is reached twice, since a sprite is narrower and lower than the screen (R183 a). -/
theorem spriteCells_nodup (x0 y0 n : Nat) (bytes : Nat → Byte) (hn : n ≤ 32) : (spriteCells x0 y0 n bytes).Nodup := by
  refine List.nodup_flatMap.2 ⟨fun r _ => ?_, ?_⟩
  · refine List.Nodup.map_on ?_ (List.nodup_range.filter _)
    intro c hc d hd h
    simp only [List.mem_filter, List.mem_range, Prod.mk.injEq, Fin.ext_iff, Fin.val_ofNat] at hc hd h
    omega
  · refine List.Pairwise.imp_of_mem ?_ List.nodup_range
    intro r q hr hq hne
    simp only [List.mem_range] at hr hq
    rw [Function.onFun, List.disjoint_left]
    intro p hp hp'
    simp only [List.mem_map] at hp hp'
    obtain ⟨c, -, rfl⟩ := hp
    obtain ⟨d, -, h⟩ := hp'
    simp only [Prod.mk.injEq, Fin.ext_iff, Fin.val_ofNat] at h
    omega

/-- One pass over cells without repeats: each listed cell is flipped, and a listed cell that was on collides. -/
theorem foldl_blitPixel (l : List (Fin 32 × Fin 64)) (hl : l.Nodup) (acc : Blit) :
    (∀ row col, pixel (l.foldl (fun acc p => blitPixel acc p.1 p.2) acc).1 row col =
        (pixel acc.1 row col ^^ decide ((row, col) ∈ l))) ∧
      ((l.foldl (fun acc p => blitPixel acc p.1 p.2) acc).2 = true ↔
        acc.2 = true ∨ ∃ row col, (row, col) ∈ l ∧ pixel acc.1 row col = true) := by
  induction l generalizing acc with
  | nil => simp
  | cons p l ih =>
    obtain ⟨hp, hl⟩ := List.nodup_cons.1 hl
    obtain ⟨cells, hit⟩ := ih hl (blitPixel acc p.1 p.2)
    rw [List.foldl_cons]
    refine ⟨fun row col => ?_, ?_⟩
    · rw [cells, blitPixel, pixel_flipPixel]
      by_cases h : (row, col) = p
      · subst h
        simp [hp]
      · have h' : ¬ (row = p.1 ∧ col = p.2) := fun ⟨a, b⟩ => h (Prod.ext a b)
        simp [h, h']
    · rw [hit]
      simp only [blitPixel, pixel_flipPixel, Bool.or_eq_true, List.mem_cons]
      constructor
      · rintro ((h | h) | ⟨row, col, hm, h⟩)
        · exact .inl h
        · exact .inr ⟨p.1, p.2, .inl rfl, h⟩
        · have h' : ¬ (row = p.1 ∧ col = p.2) := fun ⟨a, b⟩ => hp ((Prod.ext a b : (row, col) = p) ▸ hm)
          exact .inr ⟨row, col, .inr hm, by simpa [h'] using h⟩
      · rintro (h | ⟨row, col, rfl | hm, h⟩)
        · exact .inl (.inl h)
        · exact .inl (.inr h)
        · have h' : ¬ (row = p.1 ∧ col = p.2) := fun ⟨a, b⟩ => hp ((Prod.ext a b : (row, col) = p) ▸ hm)
          exact .inr ⟨row, col, hm, by simpa [h'] using h⟩

/-- The sprite engine, cell by cell: a cell is flipped exactly when a 1 pixel lands on it, and the collision says that one of
those cells was on. -/
theorem blitSprite_spec (fb : Screen) (x0 y0 n : Nat) (bytes : Nat → Byte) (hn : n ≤ 32) :
    (∀ row col, pixel (blitSprite fb x0 y0 n bytes).1 row col =
        (pixel fb row col ^^ decide ((row, col) ∈ spriteCells x0 y0 n bytes))) ∧
      ((blitSprite fb x0 y0 n bytes).2 = true ↔
        ∃ row col, (row, col) ∈ spriteCells x0 y0 n bytes ∧ pixel fb row col = true) := by
  rw [blitSprite_eq_cells]
  simpa using foldl_blitPixel _ (spriteCells_nodup x0 y0 n bytes hn) (fb, false)

end Sys2Proof.Machine
end

