-- ==== Sys2Proof/Laws/Step.lean ====
section
/-! SUPPORT. What a step can do, said once: the cases of the Interpreter's step and of the machine's step, guards included. -/

namespace Sys2Proof.Machine

/-- The Interpreter's step in one of the five ways of 30_encoding.md R94. -/
theorem interpreterStep_cases (s : State) :
    (s.MODE = .halted ∧ interpreterStep s = .next s) ∨
    (s.MODE ≠ .halted ∧ s.pc = 0xFFF ∧ interpreterStep s = .next (takeException s .fetchOutOfBounds)) ∨
    (s.MODE ≠ .halted ∧ s.pc ≠ 0xFFF ∧ decodeWord (fetchWord s) = none ∧ s.cfg.onIllegal = .halt ∧
      interpreterStep s = .next (takeException s (.illegalOpcode (fetchWord s)))) ∨
    (s.MODE ≠ .halted ∧ s.pc ≠ 0xFFF ∧ decodeWord (fetchWord s) = none ∧ s.cfg.onIllegal = .skip ∧
      interpreterStep s = .next (advance (emit s (.illegal (fetchWord s))))) ∨
    (s.MODE ≠ .halted ∧ s.pc ≠ 0xFFF ∧ ∃ i, decodeWord (fetchWord s) = some i ∧ interpreterStep s = exec i s) := by
  by_cases hm : s.MODE = .halted
  · exact .inl ⟨hm, if_pos hm⟩
  · by_cases hp : s.pc = 0xFFF
    · exact .inr (.inl ⟨hm, hp, by rw [interpreterStep, if_neg hm, if_pos hp]⟩)
    · have hs : interpreterStep s = match decodeWord (fetchWord s) with
          | none => illegalWord s (fetchWord s)
          | some i => exec i s := by rw [interpreterStep, if_neg hm]; exact if_neg hp
      cases hd : decodeWord (fetchWord s) with
      | some i => exact .inr (.inr (.inr (.inr ⟨hm, hp, i, rfl, by rw [hs, hd]⟩)))
      | none =>
        rw [hd] at hs
        cases ho : s.cfg.onIllegal with
        | halt => exact .inr (.inr (.inl ⟨hm, hp, rfl, rfl, by rw [hs]; simp only [illegalWord, ho]⟩))
        | skip => exact .inr (.inr (.inr (.inl ⟨hm, hp, rfl, rfl, by rw [hs]; simp only [illegalWord, ho]⟩)))

/-- The machine's step: an Interpreter step when nothing is pending, else the oldest pending action (20_memory.md R70). -/
theorem step_cases (s : State) :
    (s.inputs = [] ∧ step s = interpreterStep s) ∨
      ∃ a rest, s.inputs = a :: rest ∧ step s = perform { s with inputs := rest } a := by
  cases h : s.inputs with
  | nil => exact .inl ⟨rfl, by simp only [step, h]⟩
  | cons a rest => exact .inr ⟨a, rest, rfl, by simp only [step, h]⟩

/-- The reset action: RomTooLarge, or the boot state with the host's side kept. -/
theorem resetAction_cases (s : State) (rom : List Byte) :
    (romMax < rom.length ∧ resetAction s rom = .fault .romTooLarge) ∨
      (rom.length ≤ romMax ∧ resetAction s rom =
        .next { State.boot s.cfg rom with inputs := s.inputs, events := s.events, draws := s.draws }) := by
  by_cases h : rom.length > romMax
  · exact .inl ⟨h, if_pos h⟩
  · exact .inr ⟨by omega, if_neg h⟩

/-- A run of one more action is the action and then the rest of the run. -/
theorem run_succ (n : Nat) (s t : State) (h : step s = .next t) : Sys2Proof.core.run (n + 1) s = Sys2Proof.core.run n t := by
  simp only [Host.Core.run, show Sys2Proof.core.step s = .next t from h]

/-- A tick takes one off a timer and stops at 0 (60_exceptions.md R237). -/
@[simp] theorem countDown_toNat (v : Byte) : (countDown v).toNat = v.toNat - 1 := by
  unfold countDown
  split
  · next h => rw [h]; rfl
  · next h =>
    have h0 : v.toNat ≠ 0 := fun e => h (BitVec.eq_of_toNat_eq e)
    bv_omega

end Sys2Proof.Machine
end

