-- ==== Sys2Proof/Tests/Slice0.lean ====
section
/-! SUPPORT. Tests and witnesses. Expected results come from spec/: words written out from the patterns of 30_encoding.md R96, and the vectors T<n> of 95_test_vectors.md. The witnesses show that the hypotheses of each statement can be met together. -/

namespace Sys2Proof.Tests
open Sys2Proof Sys2Proof.Machine

/-! ## Small states -/

/-- The vectors' start state, but for the font bytes of its memory. -/
def start : State := { State.reset with MEM := [] }

/-- The start state with some V registers loaded. -/
def regs (l : List (RegIdx × Byte)) : State := l.foldl (fun s p => writeV s p.1 p.2) start

/-- A state with bytes placed from address a upward. -/
def withBytes (s : State) (a : Nat) (bytes : List Byte) : State := { s with MEM := s.MEM.writeBytes a bytes }

/-- The start state with some keys down. -/
def keysDown (l : List Key) : State := l.foldl (fun s k => keyWrite s k true) start

/-- The start state with one cell on. -/
def litCell (r : Fin 32) (c : Fin 64) : State := { start with FB := flipPixel start.FB r c }

/-- Does the outcome go on, to a state that passes p? -/
def goesTo (r : Result) (p : State → Bool) : Bool :=
  match r with
  | .next t => p t
  | .fault _ => false
  | .refused _ => false

/-- One step of s with the word w placed at its pc. -/
def runs (s : State) (w : Nat) (p : State → Bool) : Bool := goesTo (step (s.withFetchWord 16 w)) p

/-! ## WellFormed: the one check, and its neighbours -/

theorem test_wellFormed_refuses_cls_as_sys : (Instr.sys 0x0E0).wellFormed = false := by decide
theorem test_wellFormed_refuses_ret_as_sys : (Instr.sys 0x0EE).wellFormed = false := by decide
theorem test_wellFormed_takes_other_sys :
    (Instr.sys 0x0E1).wellFormed = true ∧ (Instr.sys 0x000).wellFormed = true ∧ (Instr.sys 0xFFF).wellFormed = true := by
  decide

/-! ## Decoding: one word per row, written out from R96 -/

theorem test_decode_cls : decodeWord 0b0000000011100000#16 = some .cls := by decide
theorem test_decode_ret : decodeWord 0b0000000011101110#16 = some .ret := by decide
theorem test_decode_sys : decodeWord 0b0000000100100011#16 = some (.sys 0x123) := by decide
theorem test_decode_jp : decodeWord 0b0001101010111100#16 = some (.jp 0xABC) := by decide
theorem test_decode_call : decodeWord 0b0010001100000001#16 = some (.call 0x301) := by decide
theorem test_decode_seVxNn : decodeWord 0b0011101000010001#16 = some (.seVxNn 0xA 0x11) := by decide
theorem test_decode_sneVxNn : decodeWord 0b0100111110000001#16 = some (.sneVxNn 0xF 0x81) := by decide
theorem test_decode_seVxVy : decodeWord 0b0101000100100000#16 = some (.seVxVy 1 2) := by decide
theorem test_decode_ldVxNn : decodeWord 0b0110111110101011#16 = some (.ldVxNn 0xF 0xAB) := by decide
theorem test_decode_addVxNn : decodeWord 0b0111000111111110#16 = some (.addVxNn 1 0xFE) := by decide
theorem test_decode_ldVxVy : decodeWord 0b1000000100100000#16 = some (.ldVxVy 1 2) := by decide
theorem test_decode_orVxVy : decodeWord 0b1000001000110001#16 = some (.orVxVy 2 3) := by decide
theorem test_decode_andVxVy : decodeWord 0b1000001101000010#16 = some (.andVxVy 3 4) := by decide
theorem test_decode_xorVxVy : decodeWord 0b1000010001010011#16 = some (.xorVxVy 4 5) := by decide
theorem test_decode_addVxVy : decodeWord 0b1000010101100100#16 = some (.addVxVy 5 6) := by decide
theorem test_decode_subVxVy : decodeWord 0b1000011001110101#16 = some (.subVxVy 6 7) := by decide
theorem test_decode_shrVx : decodeWord 0b1000011110000110#16 = some (.shrVx 7 8) := by decide
theorem test_decode_subnVxVy : decodeWord 0b1000100010010111#16 = some (.subnVxVy 8 9) := by decide
theorem test_decode_shlVx : decodeWord 0b1000100110101110#16 = some (.shlVx 9 0xA) := by decide
theorem test_decode_sneVxVy : decodeWord 0b1001000111110000#16 = some (.sneVxVy 1 0xF) := by decide
theorem test_decode_ldINnn : decodeWord 0b1010000011100000#16 = some (.ldINnn 0x0E0) := by decide
theorem test_decode_jpV0Nnn : decodeWord 0b1011001011110000#16 = some (.jpV0Nnn 0x2F0) := by decide
theorem test_decode_rndVxNn : decodeWord 0b1100000100001111#16 = some (.rndVxNn 1 0x0F) := by decide
theorem test_decode_drwVxVyN : decodeWord 0b1101000100100101#16 = some (.drwVxVyN 1 2 5) := by decide
theorem test_decode_skpVx : decodeWord 0b1110010110011110#16 = some (.skpVx 5) := by decide
theorem test_decode_sknpVx : decodeWord 0b1110010110100001#16 = some (.sknpVx 5) := by decide
theorem test_decode_ldVxDt : decodeWord 0b1111001100000111#16 = some (.ldVxDt 3) := by decide
theorem test_decode_ldVxK : decodeWord 0b1111010100001010#16 = some (.ldVxK 5) := by decide
theorem test_decode_ldDtVx : decodeWord 0b1111001100010101#16 = some (.ldDtVx 3) := by decide
theorem test_decode_ldStVx : decodeWord 0b1111001100011000#16 = some (.ldStVx 3) := by decide
theorem test_decode_addIVx : decodeWord 0b1111111100011110#16 = some (.addIVx 0xF) := by decide
theorem test_decode_ldFVx : decodeWord 0b1111001000101001#16 = some (.ldFVx 2) := by decide
theorem test_decode_ldBVx : decodeWord 0b1111001000110011#16 = some (.ldBVx 2) := by decide
theorem test_decode_ldMemVx : decodeWord 0b1111001001010101#16 = some (.ldMemVx 2) := by decide
theorem test_decode_ldVxMem : decodeWord 0b1111001001100101#16 = some (.ldVxMem 2) := by decide
/-- R98's illegal words, at the edges of each group. -/
theorem test_decode_illegal :
    [0x5001#16, 0x5FFF, 0x8008, 0x800D, 0x800F, 0x9001, 0xE000, 0xE09F, 0xE0A0, 0xF000, 0xF00B, 0xF0FF].all
      (fun w => decodeWord w == none) = true := by decide
/-- A truncated sequence is refused by name, and the rest of the bytes is kept. -/
theorem test_decode_bytes :
    decode [0x12] = .error .truncated ∧ decode [0x12, 0x34, 0x56] = .ok (.jp 0x234, [0x56]) ∧
      decode [0x50, 0x01] = .error (.illegalOpcode 0x5001) := ⟨rfl, rfl, rfl⟩
theorem test_encode_words :
    encode (.shrVx 1 2) = 0x8126 ∧ encode (.drwVxVyN 1 2 5) = 0xD125 ∧ encode (.ldVxK 15) = 0xFF0A := by decide
theorem test_decodeTableWord : decodeTableWord 16 0xD125 = some (.drwVxVyN 1 2 5) ∧ decodeTableWord 16 0xE000 = none := by
  decide

/-! ## Control flow -/

/-- T1. -/
theorem test_ret_takes_newest_entry :
    runs { start with pc := 0x300, SP := 1, STACK := start.STACK.set 0 0x204 } 0x00EE
      (fun t => t.pc == 0x204 && t.SP == 0) = true := by decide
/-- T2. -/
theorem test_ret_underflow :
    runs start 0x00EE (fun t => t.MODE == .halted && t.CAUSE == 4 && t.EPC == 0x200 && t.EINSTR == 0x00EE && t.pc == 0x200)
      = true := by decide
/-- T4: pc wraps. -/
theorem test_sys_wraps :
    runs { start with pc := 0xFFE } 0x0000 (fun t => t.events == [.unsupported 0x000] && t.pc == 0x000) = true := by decide
/-- T5. -/
theorem test_sys_next_to_cls :
    runs start 0x00E1 (fun t => t.events == [.unsupported 0x0E1] && t.pc == 0x202 && t.CAUSE == 0) = true := by decide
/-- T8: an odd target. -/
theorem test_jp_odd : runs start 0x1201 (fun t => t.pc == 0x201 && t.MODE == .running) = true := by decide
/-- T9: the pushed address wraps. -/
theorem test_call_pushes_wrapped :
    runs { start with pc := 0xFFE } 0x2ABC (fun t => t.pc == 0xABC && t.SP == 1 && t.STACK[0] == 0x000) = true := by decide
/-- T11. -/
theorem test_call_overflow :
    runs { start with SP := 16 } 0x2300
      (fun t => t.CAUSE == 3 && t.EINSTR == 0x2300 && t.SP == 16 && t.pc == 0x200) = true := by decide
/-- T14. -/
theorem test_seVxNn_taken_wraps : runs { regs [(0xA, 0x11)] with pc := 0xFFE } 0x3A11 (fun t => t.pc == 0x002) = true := by
  decide
/-- T15. -/
theorem test_seVxNn_not_taken : runs { regs [(0xA, 0x12)] with pc := 0xFFE } 0x3A11 (fun t => t.pc == 0x000) = true := by
  decide
/-- T16. -/
theorem test_sneVxNn_not_taken : runs start 0x4F00 (fun t => t.pc == 0x202) = true := by decide
/-- T17. -/
theorem test_sneVxNn_taken : runs (regs [(15, 1)]) 0x4F00 (fun t => t.pc == 0x204) = true := by decide
/-- T18. -/
theorem test_seVxVy_same : runs (regs [(3, 0x99)]) 0x5330 (fun t => t.pc == 0x204) = true := by decide
/-- T19. -/
theorem test_seVxVy_not_taken : runs (regs [(1, 1), (2, 2)]) 0x5120 (fun t => t.pc == 0x202) = true := by decide
/-- T21. -/
theorem test_sneVxVy_not_taken : runs (regs [(1, 2), (2, 2)]) 0x9120 (fun t => t.pc == 0x202) = true := by decide
theorem test_sneVxVy_taken : runs (regs [(1, 1), (2, 2)]) 0x9120 (fun t => t.pc == 0x204) = true := by decide
/-- T22: the offset is V0, not V2. -/
theorem test_jpV0Nnn_uses_V0 : runs (regs [(0, 0x20), (2, 0x77)]) 0xB2F0 (fun t => t.pc == 0x310) = true := by decide
/-- E8, as the spec corrects it. -/
theorem test_jpV0Nnn_wraps : runs (regs [(0, 2)]) 0xBFFF (fun t => t.pc == 0x001 && t.MODE == .running) = true := by decide

/-! ## Registers and arithmetic -/

/-- T30. -/
theorem test_ldVxNn_VF : runs start 0x6FAB (fun t => readV t 15 == 0xAB && t.pc == 0x202) = true := by decide
/-- T31: no flag. -/
theorem test_addVxNn_no_flag :
    runs (regs [(1, 1), (15, 0x55)]) 0x71FF (fun t => readV t 1 == 0 && readV t 15 == 0x55) = true := by decide
/-- T34. -/
theorem test_ldVxVy : runs (regs [(1, 1), (2, 0x7E)]) 0x8120 (fun t => readV t 1 == 0x7E && readV t 2 == 0x7E) = true := by
  decide
/-- T36. -/
theorem test_orVxVy :
    runs (regs [(1, 0xF0), (2, 0x0F), (15, 0x77)]) 0x8121 (fun t => readV t 1 == 0xFF && readV t 15 == 0x77) = true := by
  decide
/-- T37. -/
theorem test_andVxVy :
    runs (regs [(1, 0xF3), (2, 0x3F), (15, 0x77)]) 0x8122 (fun t => readV t 1 == 0x33 && readV t 15 == 0x77) = true := by
  decide
/-- T38. -/
theorem test_xorVxVy :
    runs (regs [(1, 0xFF), (2, 0x0F), (15, 0x77)]) 0x8123 (fun t => readV t 1 == 0xF0 && readV t 15 == 0x77) = true := by
  decide
/-- T40. -/
theorem test_addVxVy_carry :
    runs (regs [(1, 0xFF), (2, 1)]) 0x8124 (fun t => readV t 1 == 0 && readV t 15 == 1) = true := by decide
/-- T45: the flag is written last. -/
theorem test_addVxVy_flag_last : runs (regs [(15, 1), (1, 1)]) 0x8F14 (fun t => readV t 15 == 0) = true := by decide
/-- E2. -/
theorem test_subVxVy_borrow :
    runs (regs [(1, 5), (2, 6)]) 0x8125 (fun t => readV t 1 == 0xFF && readV t 15 == 0) = true := by decide
/-- T48: equal operands do not borrow. -/
theorem test_subVxVy_equal : runs (regs [(1, 0x33)]) 0x8115 (fun t => readV t 1 == 0 && readV t 15 == 1) = true := by decide
/-- E3. -/
theorem test_shrVx :
    runs (regs [(1, 5), (2, 0xFF)]) 0x8126 (fun t => readV t 1 == 2 && readV t 15 == 1 && readV t 2 == 0xFF) = true := by
  decide
/-- T54. -/
theorem test_shrVx_flag_last : runs (regs [(15, 4)]) 0x8F26 (fun t => readV t 15 == 0) = true := by decide
/-- T55. -/
theorem test_subnVxVy_borrow :
    runs (regs [(1, 5), (2, 3)]) 0x8127 (fun t => readV t 1 == 0xFE && readV t 15 == 0 && readV t 2 == 3) = true := by
  decide
/-- T57. -/
theorem test_subnVxVy_equal :
    runs (regs [(1, 7), (2, 7)]) 0x8127 (fun t => readV t 1 == 0 && readV t 15 == 1) = true := by decide
/-- E3. -/
theorem test_shlVx :
    runs (regs [(1, 0x81), (2, 0x55)]) 0x812E (fun t => readV t 1 == 2 && readV t 15 == 1 && readV t 2 == 0x55) = true := by
  decide
/-- T63. -/
theorem test_shlVx_flag_last : runs (regs [(15, 0x7F)]) 0x8F2E (fun t => readV t 15 == 0) = true := by decide
/-- T65's register for every draw is in `RandomByteIsMasked`; here what else the step does. -/
theorem test_rndVxNn_goes_on : runs (regs [(2, 0x99)]) 0xC100 (fun t => t.pc == 0x202 && readV t 2 == 0x99) = true := by
  decide

/-! ## Address register and memory -/

/-- T80. -/
theorem test_ldINnn : runs start 0xAFFF (fun t => t.I == 0xFFF && t.pc == 0x202) = true := by decide
/-- T86: past 0xFFF, with the flag on. -/
theorem test_addIVx_flag :
    runs { regs [(0, 0xFF), (15, 0x55)] with I := 0xF01, cfg := { defaultConfig with fx1eSetsVF := true } } 0xF01E
      (fun t => t.I == 0 && readV t 15 == 1) = true := by decide
/-- T82: without the flag. -/
theorem test_addIVx_no_flag :
    runs { regs [(0, 3), (15, 0x55)] with I := 0xFFE } 0xF01E (fun t => t.I == 1 && readV t 15 == 0x55) = true := by decide
/-- T91: the low nibble. -/
theorem test_ldFVx_low_nibble : runs (regs [(0, 0x1A)]) 0xF029 (fun t => t.I == 0x082) = true := by decide
/-- T97: up to the last byte of memory. -/
theorem test_ldBVx_top :
    runs { regs [(0, 0xC7)] with I := 0xFFD } 0xF033
      (fun t => t.MEM.read 0xFFD == 1 && t.MEM.read 0xFFE == 9 && t.MEM.read 0xFFF == 9) = true := by decide
/-- T98. -/
theorem test_ldBVx_beyond :
    runs { regs [(0, 0xC7)] with I := 0xFFE } 0xF033
      (fun t => t.CAUSE == 5 && t.EADDR == 0x1000 && t.EINSTR == 0xF033 && t.pc == 0x200 && t.MEM.read 0xFFE == 0) = true := by
  decide
/-- T104: the instruction overwrites itself. -/
theorem test_ldMemVx_over_itself :
    runs { regs [(0, 0x12), (2, 0x77)] with I := 0x200 } 0xF255
      (fun t => t.MEM.read 0x200 == 0x12 && t.MEM.read 0x201 == 0 && t.MEM.read 0x202 == 0x77 && t.I == 0x200) = true := by
  decide
/-- T101: no partial store. -/
theorem test_ldMemVx_beyond :
    runs { regs [(0, 0xAB), (1, 0xCD)] with I := 0xFFF } 0xF155
      (fun t => t.CAUSE == 5 && t.EADDR == 0x1000 && t.MEM.read 0xFFF == 0) = true := by decide
/-- T109: the font read as data; V4 stays. -/
theorem test_ldVxMem_font :
    runs { regs [(4, 0x44)] with I := 0x050, MEM := State.reset.MEM } 0xF365
      (fun t => readV t 0 == 0xF0 && readV t 1 == 0x90 && readV t 3 == 0x90 && readV t 4 == 0x44) = true := by decide
/-- T108. -/
theorem test_ldVxMem_beyond :
    runs { regs [(0, 1), (1, 2)] with I := 0xFFF } 0xF165 (fun t => t.CAUSE == 5 && readV t 0 == 1 && readV t 1 == 2) = true :=
  by decide

/-! ## Display -/

/-- T120, with one cell in place of the checkerboard. -/
theorem test_cls :
    runs { litCell 31 63 with V := start.V.set 15 7 } 0x00E0
      (fun t => t.FB == blankScreen && readV t 15 == 7 && t.events == [.fbChanged]) = true := by decide
/-- T124: both wraps. -/
theorem test_drwVxVyN_wraps :
    runs { withBytes (regs [(0, 0x3C), (1, 0x1F)]) 0x300 [0x81, 0x18] with I := 0x300 } 0xD012
      (fun t => t.FB[31] == BitVec.twoPow 64 60 ||| BitVec.twoPow 64 3 && t.FB[0] == BitVec.twoPow 64 63 ||| BitVec.twoPow 64 0 &&
        readV t 15 == 0) = true := by decide
/-- T125. -/
theorem test_drwVxVyN_collides :
    runs { withBytes (litCell 0 0) 0x300 [0xC0] with I := 0x300 } 0xD011
      (fun t => pixel t.FB 0 0 == false && pixel t.FB 0 1 == true && readV t 15 == 1) = true := by decide

/-! ## Keypad and timers -/

/-- T142: the low nibble. -/
theorem test_skpVx_down : runs { keysDown [0xA] with V := start.V.set 0 0x1A } 0xE09E (fun t => t.pc == 0x204) = true := by
  decide
/-- T141. -/
theorem test_skpVx_up : runs { keysDown [0xB] with V := start.V.set 0 0x0A } 0xE09E (fun t => t.pc == 0x202) = true := by
  decide
/-- T145. -/
theorem test_sknpVx_down : runs { keysDown [3] with V := start.V.set 0 0xF3 } 0xE0A1 (fun t => t.pc == 0x202) = true := by
  decide
/-- T144. -/
theorem test_sknpVx_up : runs (regs [(0, 0x0A)]) 0xE0A1 (fun t => t.pc == 0x204) = true := by decide
/-- T146. -/
theorem test_ldVxDt : runs { start with DT := 0x1E } 0xF307 (fun t => readV t 3 == 0x1E && t.DT == 0x1E) = true := by decide
/-- T149. -/
theorem test_ldVxK_lowest :
    runs (keysDown [0xC, 5]) 0xF00A (fun t => readV t 0 == 5 && t.pc == 0x202 && t.MODE == .running) = true := by decide
/-- T148. -/
theorem test_ldVxK_waits : runs start 0xF00A (fun t => t.MODE == .waitingForKey && t.pc == 0x200) = true := by decide
/-- T154. -/
theorem test_ldDtVx : runs (regs [(3, 0xFF)]) 0xF315 (fun t => t.DT == 0xFF && t.ST == 0) = true := by decide
/-- T156. -/
theorem test_ldStVx : runs (regs [(3, 1)]) 0xF318 (fun t => t.ST == 1 && soundActive t && t.DT == 0) = true := by decide

/-! ## The other agents, the fetch and the halt -/

/-- T7's second half: the fetch at the top. -/
theorem test_fetch_out_of_bounds :
    goesTo (step { start with pc := 0xFFF })
      (fun t => t.MODE == .halted && t.CAUSE == 1 && t.EPC == 0xFFF && t.EADDR == 0x1000 && t.EINSTR == 0 && t.pc == 0xFFF)
      = true := by decide
/-- R222, R234: the two ways with an illegal word. -/
theorem test_illegal_word :
    runs start 0x5001 (fun t => t.CAUSE == 2 && t.EINSTR == 0x5001 && t.pc == 0x200) = true ∧
      runs { start with cfg := { defaultConfig with onIllegal := .skip } } 0x5001
        (fun t => t.MODE == .running && t.pc == 0x202 && t.events == [.illegal 0x5001]) = true := by decide
/-- T158, T159. -/
theorem test_tick :
    goesTo (step { start with inputs := [.tick60] }) (fun t => t.DT == 0 && t.ST == 0) = true ∧
      goesTo (step { start with inputs := [.tick60], DT := 5, ST := 3, MODE := .halted })
        (fun t => t.DT == 4 && t.ST == 2 && t.MODE == .halted) = true := by decide
/-- T174, T175. -/
theorem test_halted_step_and_key :
    goesTo (step { start with MODE := .halted, CAUSE := 3 }) (fun t => t.pc == 0x200 && t.CAUSE == 3) = true ∧
      goesTo (step { start with MODE := .halted, inputs := [.keyWr 2 true] })
        (fun t => keyDown t 2 && !keyDown t 3 && t.MODE == .halted) = true := by decide
/-- T176 with E7's ROM. -/
theorem test_reset :
    goesTo (step { start with MODE := .halted, CAUSE := 3, pc := 0x444, inputs := [.rst [0x60, 0x05, 0x61]] })
      (fun t => t.MODE == .running && t.CAUSE == 0 && t.pc == 0x200 && fetchWord t == 0x6005 && t.MEM.read 0x50 == 0xF0) = true :=
  by decide
/-- Writing what an unlisted address reads as removes the entry. -/
theorem test_memory_canonical :
    Memory.write (Memory.write [] 7 0xAA) 7 0x00 = [] ∧ (Memory.write [(7, 0xAA)] 3 0x01) = [(3, 0x01), (7, 0xAA)] := by decide

/-! ## Witnesses: the hypotheses of the statements, met -/

/-- A state whose next Interpreter step halts it. -/
def Halts (s : State) : Prop := Safe s ∧ ∃ t, interpreterStep s = .next t ∧ ¬ Safe t

theorem safe_of (s : State) (h : s.MODE ≠ .halted) : Safe s := h

theorem halts_of (s t : State) (hs : s.MODE ≠ .halted) (ht : interpreterStep s = .next t) (hh : t.MODE = .halted) :
    Halts s := ⟨hs, t, ht, fun h => h hh⟩

/-- The instruction leaves s for a state that is not halted. -/
def GoesOnIn (i : Instr) (s : State) : Prop := ∃ t, exec i s = .next t ∧ Safe t

/-- The instruction halts the engine in s. -/
def HaltsIn (i : Instr) (s : State) : Prop := ∃ t, exec i s = .next t ∧ ¬ Safe t

theorem goesOnIn_of (i : Instr) (s t : State) (h : exec i s = .next t) (hm : t.MODE ≠ .halted) : GoesOnIn i s := ⟨t, h, hm⟩
theorem haltsIn_of (i : Instr) (s t : State) (h : exec i s = .next t) (hm : t.MODE = .halted) : HaltsIn i s :=
  ⟨t, h, fun hs => hs hm⟩

/-- The start state with SP = n. -/
def depth (n : Fin 17) : State := { start with SP := n }
/-- The start state with I = a. -/
def atI (a : Addr) : State := { start with I := a }
/-- The start state with given host actions pending. -/
def pending (l : List Input) : State := { start with inputs := l }
/-- Halted by the 00EE at 0x200 on an empty stack. -/
def halted (l : List Input) : State :=
  { start with MODE := .halted, CAUSE := 4, EINSTR := 0x00EE, EPC := 0x200, inputs := l, MEM := [(0x201, 0xEE)] }

theorem witness_WordsMatchByMaskAndValue :
    (0x00E0#16 &&& 0xFFFF = 0x00E0) ∧ (0x0FFF#16 &&& 0xF000 = 0x0000 ∧ 0x0FFF#16 ≠ 0x00E0 ∧ 0x0FFF#16 ≠ 0x00EE) ∧
      (0x8FFE#16 &&& 0xF00F = 0x800E) ∧ (0xFF65#16 &&& 0xF0FF = 0xF065) := by decide
theorem witness_IllegalWordsAreExactlyThese :
    decodeWord 0x9FFF#16 = none ∧ decodeWord 0x8FFF#16 = none ∧ decodeWord 0xEFFF#16 = none ∧ decodeWord 0xFFFF#16 = none := by
  decide
theorem witness_RowsOverlapOnlyAtClsAndRet :
    ∃ r q : OpcodeRow, r ∈ opcodeTable ∧ q ∈ opcodeTable ∧ r.hits 0x00EE = true ∧ q.hits 0x00EE = true ∧
      r.mnemonic ≠ q.mnemonic :=
  ⟨opcodeTable[1], opcodeTable[2], List.getElem_mem _, List.getElem_mem _, by decide, by decide, by decide⟩
theorem witness_DecodeOfEncodeIsTheInstruction :
    (Instr.sys 0x0E1).wellFormed = true ∧ (Instr.drwVxVyN 15 15 15).wellFormed = true := by decide
theorem witness_EncodeOfDecodeIsTheWord :
    decodeWord 0x8FE6#16 = some (.shrVx 15 14) ∧ decodeWord 0x0FFF#16 = some (.sys 0xFFF) := by decide
theorem witness_StepRunsTheDecodedInstruction :
    (start.inputs = [] ∧ Safe start ∧ start.pc ≠ 0xFFF ∧ decodeWord (fetchWord start) = some (.sys 0)) ∧
      ((pending [.stepEn, .tick60]).inputs.head? = some .stepEn ∧ Safe (pending [.stepEn]) ∧
        decodeWord (fetchWord (withBytes { pending [.stepEn] with pc := 0xFFE } 0xFFE [0xFF, 0x65])) = some (.ldVxMem 15)) :=
  ⟨⟨rfl, safe_of _ (by decide), by decide, by decide⟩, rfl, safe_of _ (by decide), by decide⟩
theorem witness_PlacedWordRunsNext :
    Memory.wf { halted [.tick60] with pc := 0xFFF }.MEM ∧ decodeWord 0x1FFF#16 = some (.jp 0xFFF) := by decide
theorem witness_FetchFailsExactlyAtTheTop :
    Halts { start with pc := 0xFFF } ∧
      (Halts (withBytes { start with pc := 0xFFE } 0xFFE [0x50, 0x01]) ∧ (0xFFE : Addr) ≠ 0xFFF) :=
  ⟨halts_of _ _ (by decide) rfl rfl, halts_of _ _ (by decide) rfl rfl, by decide⟩
theorem witness_IllegalWordHaltsOrIsSkipped :
    let s := withBytes { start with pc := 0xFFE } 0xFFE [0xFF, 0xFF]
    Safe s ∧ s.pc ≠ 0xFFF ∧ decodeWord (fetchWord s) = none ∧ s.cfg.onIllegal = .halt ∧
      Safe { s with cfg := { defaultConfig with onIllegal := .skip } } :=
  ⟨safe_of _ (by decide), by decide, by decide, by decide, safe_of _ (by decide)⟩
/-- One state for each cause, 1 to 5. -/
theorem witness_FatalExceptionsArePrecise :
    Halts { start with pc := 0xFFF } ∧ Halts (withBytes start 0x200 [0xE0, 0x00]) ∧
      Halts (withBytes (depth 16) 0x200 [0x22, 0x00]) ∧ Halts (withBytes start 0x200 [0x00, 0xEE]) ∧
      Halts (withBytes (atI 0xFFE) 0x200 [0xD0, 0x13]) :=
  ⟨halts_of _ _ (by decide) rfl rfl, halts_of _ _ (by decide) rfl rfl, halts_of _ _ (by decide) rfl rfl,
    halts_of _ _ (by decide) rfl rfl, halts_of _ _ (by decide) rfl rfl⟩
theorem witness_OnlyResetLeavesTheHalt :
    ¬ Safe (halted []) ∧ step (halted []) = .next (halted []) ∧ (halted [.stepEn]).inputs.head? = some .stepEn ∧
      (∃ t, step (halted [.keyWr 15 true]) = .next t) ∧ (∃ t, step (halted [.tick60]) = .next t) ∧
      ∃ t, step (halted [.rst []]) = .next t :=
  ⟨fun h => h rfl, rfl, rfl, ⟨_, rfl⟩, ⟨_, rfl⟩, ⟨_, rfl⟩⟩
theorem witness_EveryActionCompletesButAnOversizeRom :
    (∃ rom, (pending [.rst (List.replicate 3585 0)]).inputs.head? = some (.rst rom) ∧ rom.length > 3584) ∧
      (List.replicate 3584 (0 : Byte)).length ≤ 3584 ∧ ∀ rom, (pending [.tick60]).inputs.head? ≠ some (.rst rom) :=
  ⟨⟨_, rfl, by rw [List.length_replicate]; decide⟩, by rw [List.length_replicate], fun _ => by simp [pending]⟩
/-- A halted state with the invariant, and one that waits at an FX0A; both step. -/
theorem witness_EveryActionKeepsTheInvariant :
    (Inv (halted [.tick60]) ∧ ∃ t, step (halted [.tick60]) = .next t) ∧
      let s := { withBytes start 0xFFE [0xF5, 0x0A] with pc := 0xFFE, MODE := .waitingForKey }
      Inv s ∧ ∃ t, step s = .next t := by
  refine ⟨⟨⟨by decide, by decide, by decide, fun _ => rfl, fun h => ?_, fun _ => rfl, ⟨fun h => ?_, fun _ => rfl⟩,
    ⟨fun h => ?_, by decide⟩, fun h => ?_, fun h => ?_⟩, _, rfl⟩,
    ⟨by decide, by decide, by decide, fun h => ?_, fun h => ?_, fun h => ?_, ⟨fun h => ?_, fun h => ?_⟩,
    ⟨fun h => ?_, by decide⟩, fun _ => ⟨rfl, rfl, rfl⟩, fun _ => ⟨by decide, 5, by decide⟩⟩, _, rfl⟩
  all_goals exact absurd h (by decide)
theorem witness_ResetHasTheInvariant : (List.replicate 3584 (0xFF : Byte)).length ≤ 3584 := by rw [List.length_replicate]
/-- A jump goes on and may write none of the state the clauses name; a draw may write V only at F. -/
theorem witness_OnlyTheirInstructionsWriteEachState :
    GoesOnIn (.jp 0xFFF) start ∧ (∀ j, ¬ mayWriteV start.cfg j (.jp 0xFFF)) ∧ ¬ mayWriteI (.jp 0xFFF) ∧
      ¬ mayWriteMemory (.jp 0xFFF) ∧ ¬ mayWriteScreen (.jp 0xFFF) ∧ ¬ mayWriteStack (.jp 0xFFF) ∧
      ¬ mayRaiseEvent (.jp 0xFFF) ∧ ¬ mayWriteV start.cfg 14 (.drwVxVyN 14 13 15) ∧
      ¬ mayWriteV start.cfg 15 (.ldVxMem 14) :=
  ⟨goesOnIn_of _ _ _ rfl (by decide), fun _ h => h, id, id, id, id, id, by simp [mayWriteV], by simp [mayWriteV]⟩
theorem witness_FaultRegistersChangeOnlyWithTheHalt :
    GoesOnIn (.ldVxK 0) start ∧ GoesOnIn (.call 0) (depth 15) ∧ HaltsIn (.call 0) (depth 16) ∧ HaltsIn .ret (depth 0) ∧
      HaltsIn (.ldBVx 0) (atI 0xFFE) :=
  ⟨goesOnIn_of _ _ _ rfl (by decide), goesOnIn_of _ _ _ rfl (by decide), haltsIn_of _ _ _ rfl rfl, haltsIn_of _ _ _ rfl rfl,
    haltsIn_of _ _ _ rfl rfl⟩
theorem witness_PcFollowsItsTable :
    GoesOnIn (.seVxNn 0 0) { start with pc := 0xFFE } ∧ GoesOnIn .ret (depth 1) ∧ GoesOnIn (.jpV0Nnn 0xFFF) (regs [(0, 0xFF)]) :=
  ⟨goesOnIn_of _ _ _ rfl (by decide), goesOnIn_of _ _ _ rfl (by decide), goesOnIn_of _ _ _ rfl (by decide)⟩
/-- Addresses just below and just above the font and the ROM, with the default FONT_BASE and one ROM byte. -/
theorem witness_ResetMemoryImage :
    ([0xFF] : List Byte).length ≤ 3584 ∧ 0x04F < defaultConfig.fontBase.val ∧ defaultConfig.fontBase.val + 80 ≤ 0x0A0 ∧
      (0x1FF : Nat) < 0x200 ∧ 0x200 + ([0xFF] : List Byte).length ≤ 0x201 := by decide
theorem witness_ResetRebuildsTheWholeState :
    (halted [.rst [0x12, 0x00], .tick60]).inputs = .rst [0x12, 0x00] :: [.tick60] ∧ ([0x12, 0x00] : List Byte).length ≤ 3584 :=
  ⟨rfl, by decide⟩
theorem witness_TickCountsBothTimersDown : (halted [.tick60, .stepEn]).inputs = .tick60 :: [.stepEn] := rfl
theorem witness_TimersReachZeroAfterTheirTicks :
    (pending [.tick60, .tick60, .stepEn]).inputs = List.replicate 2 .tick60 ++ [.stepEn] := rfl
theorem witness_KeyWriteSetsThatKeyOnly : (halted [.keyWr 15 true]).inputs = .keyWr 15 true :: [] := rfl
theorem witness_CanonicalMemoryIsItsReads :
    Memory.wf [(0, 1), (4095, 255)] ∧ Memory.wf (Memory.write [(0, 1), (7, 2), (4095, 255)] 7 0) ∧
      ∀ a, Memory.read [(0, 1), (4095, 255)] a = Memory.read (Memory.write [(0, 1), (7, 2), (4095, 255)] 7 0) a :=
  ⟨by decide, by decide, fun _ => rfl⟩
/-- The stored bytes lie right behind the FX55, up to the top of memory. -/
theorem witness_NextFetchSeesStoredBytes :
    let s := { atI 0xFF0 with pc := 0xFFC }
    Memory.wf s.MEM ∧ s.I.toNat + (15 : RegIdx).val ≤ 0xFFF ∧ (15 : RegIdx).val = (14 : RegIdx).val + 1 ∧
      (15 : RegIdx) ≤ 15 ∧ (s.pc.toNat + 2) % 4096 = effectiveAddr s (14 : RegIdx).val := by decide
theorem witness_ReturnTakesTheNewestEntry : 0 < (depth 1).SP.val ∧ 0 < (depth 16).SP.val := by decide
theorem witness_CallPushesAndJumps : (depth 0).SP.val < 16 ∧ (depth 15).SP.val < 16 := by decide
theorem witness_StackLimitsHalt : (depth 16).SP.val = 16 ∧ (depth 0).SP.val = 0 := by decide
/-- Depth 15, the deepest a call may start from; the callee moves pc and loads V0. -/
theorem witness_CallThenReturnComesBack :
    (depth 15).SP.val < 16 ∧ ∃ t, exec (.call 0x300) (depth 15) = .next t ∧
      KeepsStack t (writeV { t with pc := 0x444 } 0 1) := ⟨by decide, _, rfl, rfl, rfl⟩
theorem witness_JumpGoesToItsAddress : 0x1FFF#16 &&& 0xF000 = 0x1000 := by decide
/-- Each skip, taken and not taken. -/
theorem witness_RegisterSkipsCompare :
    (0x3FFF#16 &&& 0xF000 = 0x3000 ∧ 0x4FFF#16 &&& 0xF000 = 0x4000 ∧ 0x5FF0#16 &&& 0xF00F = 0x5000 ∧
      0x9FF0#16 &&& 0xF00F = 0x9000 ∧ (0x9FFF#16 &&& 0xF000 = 0x9000 ∧ 0x9FFF#16 &&& 0x000F ≠ 0)) ∧
    ((readV start 0).toNat = (0 : Byte).toNat ∧ (readV start 0).toNat ≠ (255 : Byte).toNat) ∧
    ((readV (regs [(1, 255)]) 0).toNat = (readV (regs [(1, 255)]) 15).toNat ∧
      (readV (regs [(1, 255)]) 0).toNat ≠ (readV (regs [(1, 255)]) 1).toNat) := by decide
theorem witness_LoadImmediateAndCopy : 0x6FFF#16 &&& 0xF000 = 0x6000 ∧ 0x8FF0#16 &&& 0xF00F = 0x8000 := by decide
theorem witness_AddImmediateWrapsWithoutFlag : 0x7FFF#16 &&& 0xF000 = 0x7000 := by decide
theorem witness_LoadAddressRegister : 0xAFFF#16 &&& 0xF000 = 0xA000 := by decide
theorem witness_TimerRegistersAreReadAndWritten :
    0xFF07#16 &&& 0xF0FF = 0xF007 ∧ 0xFF15#16 &&& 0xF0FF = 0xF015 ∧ 0xFF18#16 &&& 0xF0FF = 0xF018 := by decide
/-- The register clauses of the adding, subtracting and shifting statements: a destination below F and a bystander. -/
theorem witness_ResultClauses : (14 : RegIdx) ≠ 15 ∧ (0 : RegIdx) ≠ 14 ∧ (0 : RegIdx) ≠ 15 := by decide
/-- Both borrow branches of 8XY5 and 8XY7, and both carries of 8XY4, at their edges. -/
theorem witness_FlagBranches :
    let s := regs [(0, 255), (1, 0), (2, 1), (3, 1)]
    ((readV s 0).toNat + (readV s 2).toNat > 255 ∧ ¬ (readV s 0).toNat + (readV s 1).toNat > 255) ∧
      ((readV s 2).toNat > (readV s 1).toNat ∧ ¬ (readV s 2).toNat > (readV s 3).toNat) := by decide
theorem witness_AddToAddressRegisterWraps :
    start.cfg.fx1eSetsVF = false ∧ ({ defaultConfig with fx1eSetsVF := true } : Config).fx1eSetsVF = true ∧
      (atI 0xFFF).I.toNat + (readV (atI 0xFFF) 0).toNat = 0xFFF := by decide
theorem witness_DecimalDigitsAreStored : Memory.wf (atI 0xFFD).MEM ∧ (atI 0xFFD).I.toNat + 2 ≤ 0xFFF := by decide
theorem witness_RegistersAreStored :
    Memory.wf (atI 0xFF0).MEM ∧ (atI 0xFF0).I.toNat + (15 : RegIdx).val ≤ 0xFFF ∧ (15 : RegIdx) ≤ 15 := by decide
theorem witness_RegistersAreLoaded : (atI 0xFF1).I.toNat + (14 : RegIdx).val ≤ 0xFFF ∧ (14 : RegIdx) < 15 := by decide
/-- Each of the four forms one byte beyond memory. -/
theorem witness_DataBeyondMemoryHalts :
    (atI 0xFFE).I.toNat + 2 > 0xFFF ∧ (atI 0xFF1).I.toNat + (15 : RegIdx).val > 0xFFF ∧
      (atI 0xFFF).I.toNat + (1 : RegIdx).val > 0xFFF ∧ ((15 : BitVec 4).toNat = 14 + 1 ∧ (atI 0xFF2).I.toNat + 14 > 0xFFF) := by
  decide
/-- No row with I at the top, and fifteen rows up to the top. -/
theorem witness_DrawFlipsCoveredCells :
    ((0 : BitVec 4) = 0 ∧ (atI 0xFFF).I.toNat + (0 : BitVec 4).toNat - 1 ≤ 0xFFF) ∧
      (atI 0xFF1).I.toNat + (15 : BitVec 4).toNat - 1 ≤ 0xFFF := by decide
/-- A covered cell that is on, a covered cell that is off, and a cell that is not covered. -/
theorem witness_SpriteCovers :
    let s := withBytes { litCell 0 0 with I := 0x300 } 0x300 [0xC0]
    (SpriteCovers s 0 1 1 0 0 ∧ pixel s.FB 0 0 = true) ∧ (SpriteCovers s 0 1 1 0 1 ∧ pixel s.FB 0 1 = false) ∧
      ¬ SpriteCovers s 0 1 1 31 63 := by
  refine ⟨⟨⟨0, 0, by decide⟩, by decide⟩, ⟨⟨0, 1, by decide⟩, by decide⟩, ?_⟩
  rintro ⟨r, c, hr, _, h, _⟩
  have hr0 : r = 0 := Nat.lt_one_iff.mp hr
  subst hr0
  exact absurd h (by decide)
theorem witness_DrawingTwiceRestoresTheScreen :
    (15 : Nat) ≤ 15 ∧ (0 : RegIdx) ≠ 15 ∧ (14 : RegIdx) ≠ 15 ∧ (atI 0xFF1).I.toNat + (15 : BitVec 4).toNat - 1 ≤ 0xFFF := by
  decide
theorem witness_KeySkipsTestOneKey :
    let s := { keysDown [15] with V := (start.V.set 0 0xFF).set 1 0xF0 }
    ((15 : Key).val = (readV s 0).toNat % 16 ∧ keyDown s 15 = true) ∧
      ((0 : Key).val = (readV s 1).toNat % 16 ∧ keyDown s 0 = false) := by decide
theorem witness_KeyWaitCompletesOnAPressedKey :
    (∃ k, keyDown (keysDown [15, 7]) k = true) ∧ (keysDown [15, 7]).cfg.keySelect = .lowest ∧
      ({ defaultConfig with keySelect := .other 3 } : Config).keySelect ≠ .lowest := ⟨⟨15, by decide⟩, rfl, by decide⟩
theorem witness_KeyWaitIsReexecution : ∀ k, keyDown start k = false := by decide

/-- A step between two ticks; it fetches 0x0000, no FX15 and no FX18, so both clauses have their premise. -/
theorem witness_TimersCountTicksAmongSteps :
    let l : List Input := [.tick60, .stepEn, .tick60]
    let s := { pending (l ++ [.keyWr 1 true]) with DT := 1, ST := 2 }
    s.inputs = l ++ [.keyWr 1 true] ∧ (∀ rom, .rst rom ∉ l) ∧
      ∀ (j : Nat) (u : State), j < l.length → Sys2Proof.core.run j s = .next u → u.inputs.head? = some .stepEn →
        ∀ x, decodeWord (fetchWord u) ≠ some (.ldDtVx x) ∧ decodeWord (fetchWord u) ≠ some (.ldStVx x) := by
  refine ⟨rfl, fun rom => by simp, fun j u hj hu hi x => ?_⟩
  match j, hj with
  | 0, _ => cases hu; exact absurd hi (by decide)
  | 1, _ => cases hu; exact ⟨by revert x; decide, by revert x; decide⟩
  | 2, _ => cases hu; exact absurd hi (by decide)

end Sys2Proof.Tests
end

section
/-! PROOFS of 20_memory.md: the byte order of the fetch (R61), who writes which piece of state (R64), and the timers among interleaved actions (R70). -/

namespace Sys2Proof.Machine

/-! ## The fetch -/

/-- Two bytes side by side, as a number: the left one is the high one. -/
theorem append_bytes_toNat (hi lo : Byte) : (hi ++ lo).toNat = 256 * hi.toNat + lo.toNat := by
  rw [BitVec.toNat_append, Nat.shiftLeft_eq_mul_pow, Nat.mul_comm, Nat.two_pow_add_eq_or_of_lt lo.isLt]

/-- Settles O8: the two bytes are the quotient and the remainder of the fetched word by 256. -/
theorem fetchIsBigEndian : Obligations.FetchIsBigEndian := by
  intro s
  have hw : (fetchWord s).toNat = _ := append_bytes_toNat (s.MEM.read s.pc.toNat) (s.MEM.read (s.pc.toNat + 1))
  have hlo := (s.MEM.read (s.pc.toNat + 1)).isLt
  omega

/-! ## Who writes what

`WritesOnly i s t` is the frame of instruction i from s to t. Each shared operation on t keeps it where the tables of Safety.lean
let i make that operation's write, so an instruction has its frame by going through its operations one after the other. -/

/-- From s to t only what instruction i may write has changed (10_state.md R21, R23, R28, R31 to R34; 20_memory.md R64). -/
structure WritesOnly (i : Instr) (s t : State) : Prop where
  registers : ∀ j, ¬ mayWriteV s.cfg j i → readV t j = readV s j
  index : ¬ mayWriteI i → t.I = s.I
  memory : ¬ mayWriteMemory i → t.MEM = s.MEM
  screen : ¬ mayWriteScreen i → t.FB = s.FB
  stack : ¬ mayWriteStack i → KeepsStack s t
  delay : (∀ x, i ≠ .ldDtVx x) → t.DT = s.DT
  sound : (∀ x, i ≠ .ldStVx x) → t.ST = s.ST
  events : ¬ mayRaiseEvent i → t.events = s.events
  draws : (∀ x nn, i ≠ .rndVxNn x nn) → t.draws = s.draws
  keys : t.KEYS = s.KEYS
  cfg : t.cfg = s.cfg
  inputs : t.inputs = s.inputs

namespace WritesOnly

variable {i : Instr} {s t : State}

theorem refl (i : Instr) (s : State) : WritesOnly i s s where
  registers _ _ := rfl
  index _ := rfl
  memory _ := rfl
  screen _ := rfl
  stack _ := ⟨rfl, rfl⟩
  delay _ := rfl
  sound _ := rfl
  events _ := rfl
  draws _ := rfl
  keys := rfl
  cfg := rfl
  inputs := rfl

/-! ### Operations every instruction may use: pc, MODE and the fault registers are in no table of writers -/

theorem goto (h : WritesOnly i s t) (a : Addr) : WritesOnly i s (goto t a) := { h with }

theorem advance (h : WritesOnly i s t) : WritesOnly i s (advance t) := h.goto _

theorem skipIf (h : WritesOnly i s t) (c : Bool) : WritesOnly i s (skipIf t c) := by
  cases c
  · exact h.advance
  · exact h.goto _

theorem takeException (h : WritesOnly i s t) (e : Exc) : WritesOnly i s (takeException t e) := { h with }

theorem setMode (h : WritesOnly i s t) (m : Mode) : WritesOnly i s { t with MODE := m } := { h with }

/-! ### Operations that need the instruction to be a writer -/

theorem writeV (h : WritesOnly i s t) {x : RegIdx} (v : Byte) (hx : mayWriteV s.cfg x i) :
    WritesOnly i s (writeV t x v) :=
  { h with
    registers := fun j hj => by
      have hne : j ≠ x := fun e => hj (e ▸ hx)
      rw [readV_writeV, if_neg hne, h.registers j hj] }

theorem writeVF (h : WritesOnly i s t) (f : Bool) (hf : mayWriteV s.cfg 15 i) : WritesOnly i s (writeVF t f) :=
  h.writeV _ hf

theorem writeResultAndFlag (h : WritesOnly i s t) {x : RegIdx} (v : Byte) (f : Bool) (hx : mayWriteV s.cfg x i)
    (hf : mayWriteV s.cfg 15 i) : WritesOnly i s (writeResultAndFlag t x v f) :=
  (h.writeV v hx).writeVF f hf

theorem loadThrough (h : WritesOnly i s t) {x : RegIdx} (hx : ∀ j ≤ x, mayWriteV s.cfg j i) :
    WritesOnly i s (loadThrough t x) :=
  { h with
    registers := fun j hj => by
      have hlt : ¬ j ≤ x := fun e => hj (hx j e)
      rw [readV_loadThrough, if_neg hlt, h.registers j hj] }

theorem setIndex (h : WritesOnly i s t) (a : Addr) (hi : mayWriteI i) : WritesOnly i s { t with I := a } :=
  { h with index := fun hn => absurd hi hn }

theorem storeAtI (h : WritesOnly i s t) (l : List Byte) (hi : mayWriteMemory i) : WritesOnly i s (storeAtI t l) :=
  { h with memory := fun hn => absurd hi hn }

theorem setScreen (h : WritesOnly i s t) (fb : Screen) (hi : mayWriteScreen i) : WritesOnly i s { t with FB := fb } :=
  { h with screen := fun hn => absurd hi hn }

theorem setStack (h : WritesOnly i s t) (k : Fin 17) (l : Vector Addr 16) (hi : mayWriteStack i) :
    WritesOnly i s { t with SP := k, STACK := l } :=
  { h with stack := fun hn => absurd hi hn }

theorem emit (h : WritesOnly i s t) (e : Event) (hi : mayRaiseEvent i) : WritesOnly i s (emit t e) :=
  { h with events := fun hn => absurd hi hn }

theorem setDelay {x : RegIdx} (h : WritesOnly (.ldDtVx x) s t) (v : Byte) :
    WritesOnly (.ldDtVx x) s { t with DT := v } :=
  { h with delay := fun hn => absurd rfl (hn x) }

theorem setSound {x : RegIdx} (h : WritesOnly (.ldStVx x) s t) (v : Byte) :
    WritesOnly (.ldStVx x) s { t with ST := v } :=
  { h with sound := fun hn => absurd rfl (hn x) }

theorem setDraws {x : RegIdx} {nn : Byte} (h : WritesOnly (.rndVxNn x nn) s t) (n : Nat) :
    WritesOnly (.rndVxNn x nn) s { t with draws := n } :=
  { h with draws := fun hn => absurd rfl (hn x nn) }

/-- The instructions that access memory end in this form: the fault where the bounds check says so, else the transfer. -/
theorem unlessBeyondMemory (h : WritesOnly i s t) (beyond : Bool) (w : Word) (kmax : Nat) :
    ∃ u, (if beyond then .next (dataOutOfBounds s w kmax) else .next t : Result) = .next u ∧ WritesOnly i s u := by
  cases beyond
  · exact ⟨t, rfl, h⟩
  · exact ⟨_, rfl, (refl i s).takeException _⟩

end WritesOnly

/-- Every instruction goes on to a next state, and from the state before it only what it may write has changed. -/
theorem exec_writesOnly (i : Instr) (s : State) : ∃ t, exec i s = .next t ∧ WritesOnly i s t := by
  have start : WritesOnly i s s := .refl i s
  cases i with
  | cls => exact ⟨_, rfl, ((start.setScreen _ trivial).emit _ trivial).advance⟩
  | ret =>
    obtain ⟨-, hp⟩ | ⟨_, k, -, hp⟩ := pop_spec s <;> simp only [exec, execRet, hp]
    · exact ⟨_, rfl, start.takeException _⟩
    · exact ⟨_, rfl, (start.setStack k _ trivial).goto _⟩
  | sys => exact ⟨_, rfl, (start.emit _ trivial).advance⟩
  | jp | jpV0Nnn => exact ⟨_, rfl, start.goto _⟩
  | call =>
    obtain ⟨-, hp⟩ | ⟨_, k, -, hp⟩ := push_spec s (s.pc + 2) <;> simp only [exec, execCall, hp]
    · exact ⟨_, rfl, start.takeException _⟩
    · exact ⟨_, rfl, (start.setStack k _ trivial).goto _⟩
  | seVxNn | sneVxNn | seVxVy | sneVxVy | skpVx | sknpVx => exact ⟨_, rfl, start.skipIf _⟩
  | ldVxNn | addVxNn | ldVxVy | orVxVy | andVxVy | xorVxVy | ldVxDt => exact ⟨_, rfl, (start.writeV _ rfl).advance⟩
  | addVxVy | subVxVy | shrVx | subnVxVy | shlVx =>
    exact ⟨_, rfl, (start.writeResultAndFlag _ _ (.inl rfl) (.inr rfl)).advance⟩
  | ldINnn | ldFVx => exact ⟨_, rfl, (start.setIndex _ trivial).advance⟩
  | rndVxNn => exact ⟨_, rfl, ((start.writeV _ rfl).setDraws _).advance⟩
  | drwVxVyN => exact (((start.setScreen _ trivial).writeVF _ rfl).emit _ trivial).advance.unlessBeyondMemory _ _ _
  | ldVxK =>
    simp only [exec, execLdVxK]
    split
    · exact ⟨_, rfl, start.setMode _⟩
    · exact ⟨_, rfl, (start.writeV _ rfl).advance⟩
  | ldDtVx => exact ⟨_, rfl, (start.setDelay _).advance⟩
  | ldStVx => exact ⟨_, rfl, (start.setSound _).advance⟩
  | addIVx =>
    refine ⟨_, rfl, WritesOnly.advance ?_⟩
    split
    · next hcfg => exact (start.setIndex _ trivial).writeVF _ ⟨hcfg, rfl⟩
    · exact start.setIndex _ trivial
  | ldBVx | ldMemVx => exact (start.storeAtI _ trivial).advance.unlessBeyondMemory _ _ _
  | ldVxMem => exact (start.loadThrough fun _ hj => hj).advance.unlessBeyondMemory _ _ _

/-- Settles O18: the clauses are those of `WritesOnly`, with memory and keys also read byte by byte and key by key. -/
theorem onlyTheirInstructionsWriteEachState : Obligations.OnlyTheirInstructionsWriteEachState := by
  intro i s t h
  obtain ⟨t', ht, w⟩ := exec_writesOnly i s
  obtain rfl : t = t' := Host.Outcome.next.inj (h.symm.trans ht)
  have memory : ¬ mayWriteMemory i → KeepsMemory s t ∧ t.MEM = s.MEM := fun hn =>
    ⟨fun a => by rw [w.memory hn], w.memory hn⟩
  have keys : KeepsKeys s t := fun k => by simp only [keyDown, w.keys]
  exact ⟨w.registers, w.index, memory, w.screen, w.stack, w.delay, w.sound, w.events, w.draws, keys, w.cfg, w.inputs⟩

/-! ## The timers among other actions -/

/-- The two timers (10_state.md R31, R32). -/
inductive Timer where
  | delay
  | sound

/-- The value of a timer. -/
def Timer.read : Timer → State → Byte
  | .delay, s => s.DT
  | .sound, s => s.ST

/-- The instruction that loads a timer from Vx: FX15 or FX18. -/
def Timer.loadedBy : Timer → RegIdx → Instr
  | .delay, x => .ldDtVx x
  | .sound, x => .ldStVx x

/-- The next step of the Interpreter fetches no instruction that loads the timer. -/
def Timer.NotLoadedAt (T : Timer) (s : State) : Prop := ∀ x, decodeWord (fetchWord s) ≠ some (T.loadedBy x)

/-- No step among the first n actions from s fetches an instruction that loads the timer: a hypothesis of
`Obligations.TimersCountTicksAmongSteps` for each of the two. -/
def Timer.NotLoadedDuring (T : Timer) (n : Nat) (s : State) : Prop :=
  ∀ (j : Nat) (u : State), j < n → Sys2Proof.core.run j s = .next u → u.inputs.head? = some .stepEn → T.NotLoadedAt u

theorem Timer.NotLoadedDuring.head {T : Timer} {n : Nat} {s : State} (h : T.NotLoadedDuring (n + 1) s)
    (hs : s.inputs.head? = some .stepEn) : T.NotLoadedAt s :=
  h 0 s n.succ_pos rfl hs

theorem Timer.NotLoadedDuring.tail {T : Timer} {n : Nat} {s t : State} (h : T.NotLoadedDuring (n + 1) s)
    (hst : step s = .next t) : T.NotLoadedDuring n t :=
  fun j u hj hu => h (j + 1) u (Nat.succ_lt_succ hj) ((run_succ j s t hst).trans hu)

theorem Timer.read_tick (T : Timer) (s : State) : T.read (tick s) = countDown (T.read s) := by
  cases T <;> rfl

theorem Timer.read_keyWrite (T : Timer) (s : State) (k : Key) (b : Bool) : T.read (keyWrite s k b) = T.read s := by
  cases T <;> rfl

/-- An instruction that does not load the timer keeps it. -/
theorem WritesOnly.timer {i : Instr} {s t : State} (h : WritesOnly i s t) (T : Timer) (hi : ∀ x, i ≠ T.loadedBy x) :
    T.read t = T.read s := by
  cases T with
  | delay => exact h.delay hi
  | sound => exact h.sound hi

/-- A step of the Interpreter always completes, takes no pending action, and keeps each timer it does not load. -/
theorem interpreterStep_timers (s : State) :
    ∃ t, interpreterStep s = .next t ∧ t.inputs = s.inputs ∧ ∀ T : Timer, T.NotLoadedAt s → T.read t = T.read s := by
  obtain ⟨-, h⟩ | ⟨-, -, h⟩ | ⟨-, -, -, -, h⟩ | ⟨-, -, -, -, h⟩ | ⟨-, -, i, hd, h⟩ := interpreterStep_cases s
  · exact ⟨_, h, rfl, fun _ _ => rfl⟩
  · exact ⟨_, h, rfl, fun T _ => by cases T <;> rfl⟩
  · exact ⟨_, h, rfl, fun T _ => by cases T <;> rfl⟩
  · exact ⟨_, h, rfl, fun T _ => by cases T <;> rfl⟩
  · obtain ⟨t, ht, w⟩ := exec_writesOnly i s
    exact ⟨t, h.trans ht, w.inputs, fun T hT => w.timer T fun x hx => hT x (hx ▸ hd)⟩

/-- One pending action other than a reset completes and leaves the list; a timer it does not load loses one if it is a tick and
nothing otherwise. -/
theorem step_timers (a : Input) (s : State) (rest : List Input) (hin : s.inputs = a :: rest) (ha : ∀ rom, a ≠ .rst rom) :
    ∃ t, step s = .next t ∧ t.inputs = rest ∧
      ∀ T : Timer, (a = .stepEn → T.NotLoadedAt s) → (T.read t).toNat = (T.read s).toNat - [a].count .tick60 := by
  have hs : step s = perform { s with inputs := rest } a := by simp only [step, hin]
  have read_popped (T : Timer) : T.read { s with inputs := rest } = T.read s := by cases T <;> rfl
  cases a with
  | stepEn =>
    obtain ⟨t, ht, hr, keeps⟩ := interpreterStep_timers { s with inputs := rest }
    exact ⟨t, hs.trans ht, hr, fun T hT => by rw [keeps T (hT rfl), read_popped]; rfl⟩
  | tick60 => exact ⟨_, hs, rfl, fun T _ => by rw [T.read_tick, countDown_toNat, read_popped]; rfl⟩
  | keyWr k b => exact ⟨_, hs, rfl, fun T _ => by rw [T.read_keyWrite, read_popped]; rfl⟩
  | rst rom => exact absurd rfl (ha rom)

/-- Over pending actions without a reset, each timer that no step loads loses one per tick. -/
theorem run_timers (l : List Input) (s : State) (rest : List Input) (hin : s.inputs = l ++ rest)
    (hl : ∀ rom, .rst rom ∉ l) :
    ∃ t : State, Sys2Proof.core.run l.length s = .next t ∧ t.inputs = rest ∧
      ∀ T : Timer, T.NotLoadedDuring l.length s → (T.read t).toNat = (T.read s).toNat - l.count .tick60 := by
  induction l generalizing s with
  | nil => exact ⟨s, rfl, hin, fun _ _ => rfl⟩
  | cons a l ih =>
    have ha : ∀ rom, a ≠ .rst rom := fun rom e => hl rom (e ▸ List.mem_cons_self)
    have hl' : ∀ rom, .rst rom ∉ l := fun rom hm => hl rom (List.mem_cons_of_mem a hm)
    obtain ⟨u, hu, hui, first⟩ := step_timers a s (l ++ rest) hin ha
    obtain ⟨t, ht, hti, others⟩ := ih u hui hl'
    refine ⟨t, (run_succ l.length s u hu).trans ht, hti, fun T hT => ?_⟩
    have hfirst := first T fun e => hT.head (by rw [hin, e]; rfl)
    have hcount : (a :: l).count .tick60 = [a].count .tick60 + l.count .tick60 := List.count_append (l₁ := [a])
    rw [others T (hT.tail hu), hfirst, hcount, Nat.sub_add_eq]

/-- Settles O58, by induction on the pending actions (`run_timers`); the sound line is on exactly while ST is not 0. -/
theorem timersCountTicksAmongSteps : Obligations.TimersCountTicksAmongSteps := by
  intro l s rest hin hl
  obtain ⟨t, ht, hti, timers⟩ := run_timers l s rest hin hl
  refine ⟨t, ht, hti, timers .delay, fun hst => ?_⟩
  have hST : t.ST.toNat = s.ST.toNat - l.count .tick60 := timers .sound hst
  refine ⟨hST, ?_⟩
  rw [soundActive, decide_eq_true_iff, hST]
  omega

end Sys2Proof.Machine
end

section
/-! PROOFS of 30_encoding.md: the rows that overlap (R97). -/

namespace Sys2Proof

/-- The patterns of two rows agree on the bits both fix (R95). -/
def OpcodeRow.Agrees (r q : OpcodeRow) : Prop := r.value &&& q.mask = q.value &&& r.mask

/-- The first row is CLS or RET, which fixes every bit of the word, and the second is SYS (R97). -/
def OpcodeRow.ShadowsSys (r q : OpcodeRow) : Prop :=
  r.mask = 0xFFFF ∧ q.mnemonic = "SYS" ∧
    (r.mnemonic = "CLS" ∧ r.value = 0x00E0 ∨ r.mnemonic = "RET" ∧ r.value = 0x00EE)

theorem OpcodeRow.hits_iff (w : Word) (r : OpcodeRow) : r.hits w = true ↔ w &&& r.mask = r.value := beq_iff_eq

/-- A row that fixes every bit is matched by its value alone. -/
theorem OpcodeRow.hits_iff_of_full_mask {r : OpcodeRow} (h : r.mask = 0xFFFF) (w : Word) : r.hits w = true ↔ w = r.value := by
  rw [hits_iff, h, show w &&& 0xFFFF = w from BitVec.and_allOnes]

/-- Two rows that one word matches agree: on the bits both fix, each has the word's. -/
theorem OpcodeRow.agrees_of_hits {w : Word} {r q : OpcodeRow} (hr : r.hits w = true) (hq : q.hits w = true) :
    r.Agrees q := by
  rw [hits_iff] at hr hq
  rw [Agrees, ← hr, ← hq, BitVec.and_assoc, BitVec.and_assoc, BitVec.and_comm r.mask]

/-- In the table's order, a row agrees with a later one only where it is CLS or RET and the later one is SYS. -/
theorem opcodeTable_agrees_only_before_sys :
    opcodeTable.Pairwise fun r q => r.Agrees q → r.ShadowsSys q := by
  unfold OpcodeRow.Agrees OpcodeRow.ShadowsSys
  decide

/-- The same for two rows in either order, so that the relation is symmetric. -/
def OpcodeRow.AgreesOnlyAtSys (r q : OpcodeRow) : Prop := r.Agrees q → r.ShadowsSys q ∨ q.ShadowsSys r

theorem OpcodeRow.agreesOnlyAtSys_symm : Std.Symm AgreesOnlyAtSys := ⟨fun _ _ h hqr => (h hqr.symm).symm⟩

theorem opcodeTable_agreesOnlyAtSys {r q : OpcodeRow} (hr : r ∈ opcodeTable) (hq : q ∈ opcodeTable) (hne : r ≠ q) :
    r.AgreesOnlyAtSys q := by
  have symmetric := OpcodeRow.agreesOnlyAtSys_symm
  have inOrder : opcodeTable.Pairwise OpcodeRow.AgreesOnlyAtSys :=
    opcodeTable_agrees_only_before_sys.imp fun h hrq => .inl (h hrq)
  exact inOrder.forall hr hq hne

/-- Where CLS or RET shadows SYS, the word is that row's value. -/
theorem OpcodeRow.ShadowsSys.word {w : Word} {r q : OpcodeRow} (h : r.ShadowsSys q) (hw : r.hits w = true) :
    (w = 0x00E0 ∧ r.mnemonic = "CLS" ∧ q.mnemonic = "SYS") ∨ (w = 0x00EE ∧ r.mnemonic = "RET" ∧ q.mnemonic = "SYS") := by
  obtain ⟨hmask, hq, ⟨hr, hv⟩ | ⟨hr, hv⟩⟩ := h
  · exact .inl ⟨((hits_iff_of_full_mask hmask w).mp hw).trans hv, hr, hq⟩
  · exact .inr ⟨((hits_iff_of_full_mask hmask w).mp hw).trans hv, hr, hq⟩

/-- Settles O5: two rows that one word matches agree, and the table's only agreeing rows are CLS and RET with SYS, which stands
after both. -/
theorem rowsOverlapOnlyAtClsAndRet : Obligations.RowsOverlapOnlyAtClsAndRet := by
  refine ⟨fun w r q hr hq hrw hqw hne => ?_, ?_, by decide, by decide⟩
  · obtain h | h := opcodeTable_agreesOnlyAtSys hr hq (ne_of_apply_ne _ hne) (OpcodeRow.agrees_of_hits hrw hqw)
    · obtain ⟨hw, names⟩ | ⟨hw, names⟩ := h.word hrw
      · exact .inl ⟨hw, .inl names⟩
      · exact .inr ⟨hw, .inl names⟩
    · obtain ⟨hw, hqn, hrn⟩ | ⟨hw, hqn, hrn⟩ := h.word hqw
      · exact .inl ⟨hw, .inr ⟨hrn, hqn⟩⟩
      · exact .inr ⟨hw, .inr ⟨hrn, hqn⟩⟩
  · exact ⟨opcodeTable[0], opcodeTable[1], opcodeTable[2], List.getElem_mem _, List.getElem_mem _, List.getElem_mem _,
      by decide⟩

end Sys2Proof
end

section
/-! PROOFS of 40_control_flow.md: the four register skips (R125 to R128). -/

namespace Sys2Proof

/-! ## Their words -/

/-- A word that matches a row decodes to that row's instruction, unless the row is SYS, the one row that others stand before. -/
theorem decodeWord_of_hits {w : Word} {r : OpcodeRow} (hr : r ∈ opcodeTable) (hsys : r.mnemonic ≠ "SYS")
    (hw : r.hits w = true) : decodeWord w = some (r.build w) := by
  obtain ⟨q, hq⟩ := Option.isSome_iff_exists.mp (List.find?_isSome.mpr ⟨r, hr, hw⟩)
  obtain ⟨hqw, before, after, htable, hbefore⟩ := List.find?_eq_some_iff_append.mp hq
  have inOrder := opcodeTable_agrees_only_before_sys
  rw [htable, List.pairwise_append, List.pairwise_cons] at inOrder
  obtain ⟨-, ⟨shadowedByFirst, -⟩, -⟩ := inOrder
  rw [htable, List.mem_append, List.mem_cons] at hr
  obtain hr | rfl | hr := hr
  · exact absurd hw (by simpa using hbefore r hr)
  · rw [decodeWord, hq, Option.map_some]
  · obtain ⟨-, isSys, -⟩ := shadowedByFirst r hr (OpcodeRow.agrees_of_hits hqw hw)
    exact absurd isSys hsys

/-- On bits that a row fixes, a word that matches the row has the row's value. -/
theorem OpcodeRow.and_eq_of_hits {w m : Word} {r : OpcodeRow} (hw : r.hits w = true) (hm : r.mask &&& m = m) :
    w &&& m = r.value &&& m := by
  rw [← (hits_iff w r).mp hw, BitVec.and_assoc, hm]

theorem opcodeTable_fixes_op : ∀ r ∈ opcodeTable, r.mask &&& 0xF000 = 0xF000 := by decide

/-- The only rows of opcodes 5 and 9 are 5XY0 and 9XY0 (R96). -/
theorem opcodeTable_n_zero_of_op :
    ∀ r ∈ opcodeTable, r.value &&& 0xF000 = 0x5000 ∨ r.value &&& 0xF000 = 0x9000 →
      r.mask &&& 0x000F = 0x000F ∧ r.value &&& 0x000F = 0 := by decide

theorem decodeWord_eq_none_of_n_ne_zero {w : Word} (hop : w &&& 0xF000 = 0x5000 ∨ w &&& 0xF000 = 0x9000)
    (hn : w &&& 0x000F ≠ 0) : decodeWord w = none := by
  rw [decodeWord, Option.map_eq_none_iff, List.find?_eq_none]
  intro r hr hw
  rw [OpcodeRow.and_eq_of_hits hw (opcodeTable_fixes_op r hr)] at hop
  obtain ⟨hmask, hvalue⟩ := opcodeTable_n_zero_of_op r hr hop
  exact hn ((OpcodeRow.and_eq_of_hits hw hmask).trans hvalue)

namespace Machine

/-! ## What a skip does -/

theorem skipIf_movesBy_four (s : State) : MovesBy 4 s (skipIf s true) := fun h => by
  rw [skipIf_pc_toNat, if_pos rfl, Nat.mod_eq_of_lt h]

theorem skipIf_movesBy_two (s : State) : MovesBy 2 s (skipIf s false) := fun h => by
  rw [skipIf_pc_toNat, if_neg Bool.false_ne_true, Nat.mod_eq_of_lt h]

theorem goto_keepsDevices (s : State) (a : Addr) : KeepsDevices s (goto s a) :=
  ⟨fun _ => rfl, fun _ _ => rfl, ⟨rfl, rfl⟩, ⟨rfl, rfl⟩, fun _ => rfl⟩

theorem skipIf_keepsDevices (s : State) (c : Bool) : KeepsDevices s (skipIf s c) := by
  cases c
  · exact goto_keepsDevices s _
  · exact goto_keepsDevices s _

theorem skipIf_safe (s : State) (c : Bool) : Safe (skipIf s c) := by
  rw [Safe, skipIf_MODE]
  decide

/-- Settles O36: a word decodes to the row it matches (`decodeWord_of_hits`), and each of the four ends in `skipIf` with its
comparison. -/
theorem registerSkipsCompare : Obligations.RegisterSkipsCompare := by
  refine ⟨fun w => ⟨fun h => ?_, fun h => ?_, fun h => ?_, fun h => ?_, decodeWord_eq_none_of_n_ne_zero⟩,
    fun s i taken hi => ?_⟩
  · exact decodeWord_of_hits (r := opcodeTable[5]) (List.getElem_mem _) (by decide) ((OpcodeRow.hits_iff w _).mpr h)
  · exact decodeWord_of_hits (r := opcodeTable[6]) (List.getElem_mem _) (by decide) ((OpcodeRow.hits_iff w _).mpr h)
  · exact decodeWord_of_hits (r := opcodeTable[7]) (List.getElem_mem _) (by decide) ((OpcodeRow.hits_iff w _).mpr h)
  · exact decodeWord_of_hits (r := opcodeTable[19]) (List.getElem_mem _) (by decide) ((OpcodeRow.hits_iff w _).mpr h)
  · obtain ⟨c, hexec, hc⟩ : ∃ c, exec i s = .next (skipIf s c) ∧ (taken ↔ c = true) := by
      obtain ⟨x, nn, rfl, ht⟩ | ⟨x, nn, rfl, ht⟩ | ⟨x, y, rfl, ht⟩ | ⟨x, y, rfl, ht⟩ := hi
      · exact ⟨_, rfl, by rw [ht, BitVec.toNat_inj, beq_iff_eq]⟩
      · exact ⟨_, rfl, by rw [ht, BitVec.toNat_ne_iff_ne, bne_iff_ne]⟩
      · exact ⟨_, rfl, by rw [ht, BitVec.toNat_inj, beq_iff_eq]⟩
      · exact ⟨_, rfl, by rw [ht, BitVec.toNat_ne_iff_ne, bne_iff_ne]⟩
    refine ⟨skipIf s c, hexec, fun h => ?_, fun h => ?_, skipIf_safe s c, readV_skipIf s c, skipIf_I s c,
      skipIf_keepsDevices s c⟩
    · rw [hc.mp h]
      exact skipIf_movesBy_four s
    · rw [Bool.eq_false_of_not_eq_true (mt hc.mpr h)]
      exact skipIf_movesBy_two s

end Machine
end Sys2Proof
end

section
/-! PROOFS of 41_register_alu.md: the loads and the addition without a flag (R141 to R143). -/

namespace Sys2Proof

/-- A word that has a row's value under its mask decodes to that row's instruction, for every row but SYS. -/
theorem decodeWord_of_row {w : Word} (k : Nat) (hk : k < opcodeTable.length) (hsys : opcodeTable[k].mnemonic ≠ "SYS")
    (hw : w &&& opcodeTable[k].mask = opcodeTable[k].value) : decodeWord w = some (opcodeTable[k].build w) :=
  decodeWord_of_hits (List.getElem_mem hk) hsys ((OpcodeRow.hits_iff w _).mpr hw)

namespace Machine

/-! ## What writing one register and going on does -/

/-- Vx holds v and pc has moved by 2; no other register and nothing else the head of 41_register_alu.md names has changed. -/
structure LoadsRegister (x : RegIdx) (v : Byte) (s t : State) : Prop where
  destination : readV t x = v
  registers : KeepsRegistersBut x s t
  pc : MovesBy 2 s t
  safe : Safe t
  index : t.I = s.I
  devices : KeepsDevices s t

theorem advance_movesBy (s : State) : MovesBy 2 s (advance s) := fun h => by
  rw [advance_goesOn, Nat.mod_eq_of_lt h]

theorem advance_safe (s : State) : Safe (advance s) := by
  rw [Safe, advance_MODE]
  decide

theorem writeV_keepsRegistersBut (s : State) (x : RegIdx) (v : Byte) : KeepsRegistersBut x s (writeV s x v) :=
  fun j hj => by rw [readV_writeV, if_neg hj]

theorem writeV_keepsDevices (s : State) (x : RegIdx) (v : Byte) : KeepsDevices s (writeV s x v) :=
  ⟨fun _ => rfl, fun _ _ => rfl, ⟨rfl, rfl⟩, ⟨rfl, rfl⟩, fun _ => rfl⟩

/-- 6XNN, 7XNN and 8XY0 to 8XY3 all end in this form. -/
theorem advance_writeV_loadsRegister (s : State) (x : RegIdx) (v : Byte) :
    LoadsRegister x v s (advance (writeV s x v)) where
  destination := by rw [readV_advance, readV_writeV, if_pos rfl]
  registers := writeV_keepsRegistersBut s x v
  pc := advance_movesBy (writeV s x v)
  safe := advance_safe (writeV s x v)
  index := rfl
  devices := writeV_keepsDevices s x v

/-- Settles O37: rows 9 and 11 of R96 are those of 6XNN and 8XY0, and each loads Vx with its operand's value. -/
theorem loadImmediateAndCopy : Obligations.LoadImmediateAndCopy := by
  refine ⟨fun w => ⟨decodeWord_of_row 8 (by decide) (by decide), decodeWord_of_row 10 (by decide) (by decide)⟩,
    fun s x nn => ?_, fun s x y => ?_⟩
  · obtain ⟨hx, others, hpc, safe, hI, devices⟩ := advance_writeV_loadsRegister s x nn
    exact ⟨_, rfl, hx, others, hpc, safe, hI, devices⟩
  · obtain ⟨hx, others, hpc, safe, hI, devices⟩ := advance_writeV_loadsRegister s x (readV s y)
    exact ⟨_, rfl, hx, others, hpc, safe, hI, devices⟩

/-- Settles O38: row 10 of R96 is that of 7XNN, which loads Vx with the sum of two bytes; a sum of bytes is one modulo 256. -/
theorem addImmediateWrapsWithoutFlag : Obligations.AddImmediateWrapsWithoutFlag := by
  refine ⟨fun w => decodeWord_of_row 9 (by decide) (by decide), fun s x nn => ?_⟩
  obtain ⟨hx, others, hpc, safe, hI, devices⟩ := advance_writeV_loadsRegister s x (readV s x + nn)
  exact ⟨_, rfl, (congrArg BitVec.toNat hx).trans (BitVec.toNat_add _ _), others, hpc, safe, hI, devices⟩

end Machine
end Sys2Proof
end

section
/-! PROOFS of 42_index_memory.md: the load of I (R161). -/

namespace Sys2Proof.Machine

theorem setIndex_keepsDevices (s : State) (a : Addr) : KeepsDevices s { s with I := a } :=
  ⟨fun _ => rfl, fun _ _ => rfl, ⟨rfl, rfl⟩, ⟨rfl, rfl⟩, fun _ => rfl⟩

/-- Settles O44: row 21 of R96 is that of ANNN, which sets I to its operand, with no check of it, and goes on. -/
theorem loadAddressRegister : Obligations.LoadAddressRegister := by
  refine ⟨fun w => decodeWord_of_row 20 (by decide) (by decide), fun s nnn => ?_⟩
  let loaded : State := { s with I := nnn }
  exact ⟨advance loaded, rfl, advance_I loaded, advance_movesBy loaded, advance_safe loaded, readV_advance loaded,
    setIndex_keepsDevices s nnn⟩

end Sys2Proof.Machine
end

section
/-! PROOFS of 60_exceptions.md: fatal exceptions are precise (R226). -/

namespace Sys2Proof.Machine

/-! ## The two ways an instruction can end -/

/-- From s the outcome is a safe state, or an exception taken in s itself, before any write (R226). -/
def CompletesOrTraps (s : State) (r : Result) : Prop :=
  (∃ t, r = .next t ∧ Safe t) ∨ ∃ e, r = .next (takeException s e)

theorem takeException_onlyHalt (s : State) (e : Exc) : OnlyHalt s (takeException s e) := rfl

theorem goto_safe (s : State) (a : Addr) : Safe (goto s a) := by
  rw [Safe, goto_MODE]
  decide

namespace CompletesOrTraps

variable (s u : State)

theorem of_goto (a : Addr) : CompletesOrTraps s (.next (goto u a)) := .inl ⟨_, rfl, goto_safe u a⟩

theorem of_advance : CompletesOrTraps s (.next (advance u)) := .inl ⟨_, rfl, advance_safe u⟩

theorem of_skipIf (c : Bool) : CompletesOrTraps s (.next (skipIf u c)) := .inl ⟨_, rfl, skipIf_safe u c⟩

theorem of_takeException (e : Exc) : CompletesOrTraps s (.next (takeException s e)) := .inr ⟨e, rfl⟩

/-- The instructions that access memory check its bounds before the transfer (20_memory.md R67). -/
theorem of_unlessBeyondMemory (beyond : Bool) (w : Word) (kmax : Nat) :
    CompletesOrTraps s (if beyond then .next (dataOutOfBounds s w kmax) else .next (advance u)) := by
  cases beyond
  · exact of_advance s u
  · exact of_takeException s _

end CompletesOrTraps

open CompletesOrTraps in
/-- Every instruction tests its exception condition before its first write. -/
theorem exec_completesOrTraps (i : Instr) (s : State) : CompletesOrTraps s (exec i s) := by
  cases i with
  | ret =>
    obtain ⟨-, hp⟩ | ⟨_, _, -, hp⟩ := pop_spec s <;> simp only [exec, execRet, hp]
    · exact of_takeException s _
    · exact of_goto s _ _
  | call =>
    obtain ⟨-, hp⟩ | ⟨_, _, -, hp⟩ := push_spec s (s.pc + 2) <;> simp only [exec, execCall, hp]
    · exact of_takeException s _
    · exact of_goto s _ _
  | jp | jpV0Nnn => exact of_goto s _ _
  | seVxNn | sneVxNn | seVxVy | sneVxVy | skpVx | sknpVx => exact of_skipIf s _ _
  | drwVxVyN | ldBVx | ldMemVx | ldVxMem => exact of_unlessBeyondMemory s _ _ _ _
  | ldVxK =>
    simp only [exec, execLdVxK]
    split
    · exact .inl ⟨_, rfl, Mode.noConfusion⟩
    · exact of_advance s _
  | cls | sys | ldVxNn | addVxNn | ldVxVy | orVxVy | andVxVy | xorVxVy | addVxVy | subVxVy | shrVx | subnVxVy | shlVx
  | ldINnn | rndVxNn | ldVxDt | ldDtVx | ldStVx | addIVx | ldFVx => exact of_advance s _

/-- So does every step of an engine that is not halted: the fetch and the decoding come before the instruction (R231). -/
theorem interpreterStep_completesOrTraps {s : State} (hs : Safe s) : CompletesOrTraps s (interpreterStep s) := by
  obtain ⟨halted, -⟩ | ⟨-, -, h⟩ | ⟨-, -, -, -, h⟩ | ⟨-, -, -, -, h⟩ | ⟨-, -, i, -, h⟩ := interpreterStep_cases s
  · exact absurd halted hs
  · rw [h]
    exact .of_takeException s _
  · rw [h]
    exact .of_takeException s _
  · rw [h]
    exact .of_advance s _
  · rw [h]
    exact exec_completesOrTraps i s

/-- Settles O13: a step that ends halted is an exception taken in the state before it. -/
theorem fatalExceptionsArePrecise : Obligations.FatalExceptionsArePrecise := by
  intro s t hs ht halted
  obtain ⟨u, hu, safe⟩ | ⟨e, he⟩ := interpreterStep_completesOrTraps hs
  · obtain rfl : t = u := Host.Outcome.next.inj (ht.symm.trans hu)
    exact absurd safe halted
  · obtain rfl : t = takeException s e := Host.Outcome.next.inj (ht.symm.trans he)
    exact takeException_onlyHalt s e

end Sys2Proof.Machine
end

section
/-! PROOFS of 30_encoding.md: the fields (R91), the round trip between words and instructions (R96), the rows as masks and values (R95) and the illegal words (R98). -/

namespace Sys2Proof

/-! ## Words as numbers -/

/-- Settles O1: the first row that each word matches (R97). -/
theorem tableWordsDecode : Obligations.TableWordsDecode := by
  unfold Obligations.TableWordsDecode
  decide

/-- Settles O2: a slice of a word is its number divided by the slice's place, modulo the slice's size. -/
theorem fieldsAreSlicesOfTheWord : Obligations.FieldsAreSlicesOfTheWord := by
  intro w
  simp [fieldX, fieldY, fieldN, fieldNN, fieldNNN, Nat.shiftRight_eq_div_pow]

/-- The opcode nibble w[15:12] (R91). -/
def fieldOp (w : Word) : BitVec 4 := w.extractLsb' 12 4

theorem fieldOp_toNat (w : Word) : (fieldOp w).toNat = w.toNat / 4096 := by
  have := w.isLt
  simp only [fieldOp, BitVec.extractLsb'_toNat, Nat.shiftRight_eq_div_pow]
  omega

theorem append_toNat {m n : Nat} (a : BitVec m) (b : BitVec n) : (a ++ b).toNat = 2 ^ n * a.toNat + b.toNat := by
  rw [BitVec.toNat_append, Nat.shiftLeft_eq_mul_pow, Nat.mul_comm, Nat.two_pow_add_eq_or_of_lt b.isLt]

theorem wordNNN_toNat (op : BitVec 4) (nnn : Addr) : (wordNNN op nnn).toNat = 4096 * op.toNat + nnn.toNat :=
  append_toNat op nnn

theorem wordXNN_toNat (op : BitVec 4) (x : RegIdx) (nn : Byte) :
    (wordXNN op x nn).toNat = 4096 * op.toNat + 256 * x.val + nn.toNat := by
  have hx : (BitVec.ofFin (w := 4) x).toNat = x.val := rfl
  rw [wordXNN, append_toNat, append_toNat, hx]
  omega

theorem wordXYN_toNat (op : BitVec 4) (x y : RegIdx) (n : BitVec 4) :
    (wordXYN op x y n).toNat = 4096 * op.toNat + 256 * x.val + 16 * y.val + n.toNat := by
  have hx : (BitVec.ofFin (w := 4) x).toNat = x.val := rfl
  have hy : (BitVec.ofFin (w := 4) y).toNat = y.val := rfl
  rw [wordXYN, append_toNat, append_toNat, append_toNat, hx, hy]
  omega

/-! ### A word is its fields, in each of the formats of R91 -/

theorem wordNNN_fields (w : Word) : wordNNN (fieldOp w) (fieldNNN w) = w := by
  obtain ⟨-, -, -, -, hnnn⟩ := fieldsAreSlicesOfTheWord w
  apply BitVec.eq_of_toNat_eq
  rw [wordNNN_toNat, fieldOp_toNat, hnnn]
  omega

theorem wordXNN_fields (w : Word) : wordXNN (fieldOp w) (fieldX w) (fieldNN w) = w := by
  obtain ⟨hx, -, -, hnn, -⟩ := fieldsAreSlicesOfTheWord w
  apply BitVec.eq_of_toNat_eq
  rw [wordXNN_toNat, fieldOp_toNat, hx, hnn]
  omega

theorem wordXYN_fields (w : Word) : wordXYN (fieldOp w) (fieldX w) (fieldY w) (fieldN w) = w := by
  obtain ⟨hx, hy, hn, -, -⟩ := fieldsAreSlicesOfTheWord w
  apply BitVec.eq_of_toNat_eq
  rw [wordXYN_toNat, fieldOp_toNat, hx, hy, hn]
  omega

/-! ### The fields of an encoded word are its operands -/

@[simp] theorem fields_wordNNN (op : BitVec 4) (nnn : Addr) :
    fieldOp (wordNNN op nnn) = op ∧ fieldNNN (wordNNN op nnn) = nnn := by
  obtain ⟨-, -, -, -, hnnn⟩ := fieldsAreSlicesOfTheWord (wordNNN op nnn)
  have hop := fieldOp_toNat (wordNNN op nnn)
  have := nnn.isLt
  rw [wordNNN_toNat] at hop hnnn
  exact ⟨BitVec.eq_of_toNat_eq (by omega), BitVec.eq_of_toNat_eq (by omega)⟩

@[simp] theorem fields_wordXNN (op : BitVec 4) (x : RegIdx) (nn : Byte) :
    fieldOp (wordXNN op x nn) = op ∧ fieldX (wordXNN op x nn) = x ∧ fieldNN (wordXNN op x nn) = nn := by
  obtain ⟨hx, -, -, hnn, -⟩ := fieldsAreSlicesOfTheWord (wordXNN op x nn)
  have hop := fieldOp_toNat (wordXNN op x nn)
  have := nn.isLt
  rw [wordXNN_toNat] at hop hx hnn
  exact ⟨BitVec.eq_of_toNat_eq (by omega), Fin.ext (by omega), BitVec.eq_of_toNat_eq (by omega)⟩

@[simp] theorem fields_wordXYN (op : BitVec 4) (x y : RegIdx) (n : BitVec 4) :
    fieldOp (wordXYN op x y n) = op ∧ fieldX (wordXYN op x y n) = x ∧ fieldY (wordXYN op x y n) = y ∧
      fieldN (wordXYN op x y n) = n := by
  obtain ⟨hx, hy, hn, -, -⟩ := fieldsAreSlicesOfTheWord (wordXYN op x y n)
  have hop := fieldOp_toNat (wordXYN op x y n)
  have := n.isLt
  rw [wordXYN_toNat] at hop hx hy hn
  exact ⟨BitVec.eq_of_toNat_eq (by omega), Fin.ext (by omega), Fin.ext (by omega), BitVec.eq_of_toNat_eq (by omega)⟩

/-! ### What the masks of R96 leave of a word -/

theorem and_op_iff (w : Word) (op : BitVec 4) : w &&& 0xF000 = wordNNN op 0 ↔ fieldOp w = op := by
  have h : w &&& 0xF000 = wordNNN (fieldOp w) 0 := by
    conv_lhs => rw [← wordNNN_fields w]
    exact Laws.wordNNN_op _ _
  rw [h]
  exact ⟨fun e => by simpa using congrArg fieldOp e, fun e => by rw [e]⟩

theorem and_op_n_iff (w : Word) (op n : BitVec 4) :
    w &&& 0xF00F = wordXYN op 0 0 n ↔ fieldOp w = op ∧ fieldN w = n := by
  have h : w &&& 0xF00F = wordXYN (fieldOp w) 0 0 (fieldN w) := by
    conv_lhs => rw [← wordXYN_fields w]
    exact Laws.wordXYN_op_n _ _ _ _
  rw [h]
  exact ⟨fun e => ⟨by simpa using congrArg fieldOp e, by simpa using congrArg fieldN e⟩, fun ⟨e, e'⟩ => by rw [e, e']⟩

theorem and_op_nn_iff (w : Word) (op : BitVec 4) (nn : Byte) :
    w &&& 0xF0FF = wordXNN op 0 nn ↔ fieldOp w = op ∧ fieldNN w = nn := by
  have h : w &&& 0xF0FF = wordXNN (fieldOp w) 0 (fieldNN w) := by
    conv_lhs => rw [← wordXNN_fields w]
    exact Laws.wordXNN_op_nn _ _ _
  rw [h]
  exact ⟨fun e => ⟨by simpa using congrArg fieldOp e, by simpa using congrArg fieldNN e⟩, fun ⟨e, e'⟩ => by rw [e, e']⟩

/-! ## Words and instructions (R96) -/

/-- A word that decodes matches a row in the table, whose instruction it decodes to; SYS is the row only of other words than
CLS's and RET's (R97). -/
theorem exists_row_of_decodeWord {w : Word} {i : Instr} (h : decodeWord w = some i) :
    ∃ r ∈ opcodeTable, r.hits w = true ∧ r.build w = i ∧ (r.mnemonic = "SYS" → w ≠ 0x00E0 ∧ w ≠ 0x00EE) := by
  obtain ⟨r, hr, hi⟩ := Option.map_eq_some_iff.mp h
  refine ⟨r, List.mem_of_find?_eq_some hr, List.find?_some hr, hi, fun hsys => ?_⟩
  constructor
  · rintro rfl
    obtain rfl := Option.some.inj (hr.symm.trans (show _ = some opcodeTable[0] by rfl))
    exact absurd hsys (by decide)
  · rintro rfl
    obtain rfl := Option.some.inj (hr.symm.trans (show _ = some opcodeTable[1] by rfl))
    exact absurd hsys (by decide)

/-! ### Decode, then encode -/

theorem wordNNN_of_and {w : Word} (op : BitVec 4) (h : w &&& 0xF000 = wordNNN op 0) : wordNNN op (fieldNNN w) = w := by
  rw [← (and_op_iff w op).mp h, wordNNN_fields]

theorem wordXNN_of_and {w : Word} (op : BitVec 4) (h : w &&& 0xF000 = wordNNN op 0) :
    wordXNN op (fieldX w) (fieldNN w) = w := by
  rw [← (and_op_iff w op).mp h, wordXNN_fields]

theorem wordXYN_of_and {w : Word} (op : BitVec 4) (h : w &&& 0xF000 = wordNNN op 0) :
    wordXYN op (fieldX w) (fieldY w) (fieldN w) = w := by
  rw [← (and_op_iff w op).mp h, wordXYN_fields]

theorem wordXYN_of_and_n {w : Word} (op n : BitVec 4) (h : w &&& 0xF00F = wordXYN op 0 0 n) :
    wordXYN op (fieldX w) (fieldY w) n = w := by
  obtain ⟨hop, hn⟩ := (and_op_n_iff w op n).mp h
  rw [← hop, ← hn, wordXYN_fields]

theorem wordXNN_of_and_nn {w : Word} (op : BitVec 4) (nn : Byte) (h : w &&& 0xF0FF = wordXNN op 0 nn) :
    wordXNN op (fieldX w) nn = w := by
  obtain ⟨hop, hnn⟩ := (and_op_nn_iff w op nn).mp h
  rw [← hop, ← hnn, wordXNN_fields]

/-- A word that matches a row is the encoding of the row's instruction. -/
theorem encode_build_of_hits (w : Word) : ∀ r ∈ opcodeTable, r.hits w = true → encode (r.build w) = w := by
  simp only [opcodeTable, opcodesFlow, opcodesLoadAlu, opcodesAddress, opcodesDevice, List.forall_mem_append,
    List.forall_mem_cons, OpcodeRow.hits_iff]
  have whole (v : Word) (h : w &&& 0xFFFF = v) : v = w := h.symm.trans BitVec.and_allOnes
  refine ⟨⟨⟨?_, ?_⟩, ?_⟩, ?_⟩
  · exact ⟨whole _, whole _, wordNNN_of_and 0, wordNNN_of_and 1, wordNNN_of_and 2, wordXNN_of_and 3, wordXNN_of_and 4,
      wordXYN_of_and_n 5 0, nofun⟩
  · exact ⟨wordXNN_of_and 6, wordXNN_of_and 7, wordXYN_of_and_n 8 0, wordXYN_of_and_n 8 1, wordXYN_of_and_n 8 2,
      wordXYN_of_and_n 8 3, wordXYN_of_and_n 8 4, wordXYN_of_and_n 8 5, wordXYN_of_and_n 8 6, wordXYN_of_and_n 8 7,
      wordXYN_of_and_n 8 0xE, wordXYN_of_and_n 9 0, nofun⟩
  · exact ⟨wordNNN_of_and 0xA, wordNNN_of_and 0xB, wordXNN_of_and 0xC, wordXYN_of_and 0xD, wordXNN_of_and_nn 0xE 0x9E,
      wordXNN_of_and_nn 0xE 0xA1, nofun⟩
  · exact ⟨wordXNN_of_and_nn 0xF 0x07, wordXNN_of_and_nn 0xF 0x0A, wordXNN_of_and_nn 0xF 0x15, wordXNN_of_and_nn 0xF 0x18,
      wordXNN_of_and_nn 0xF 0x1E, wordXNN_of_and_nn 0xF 0x29, wordXNN_of_and_nn 0xF 0x33, wordXNN_of_and_nn 0xF 0x55,
      wordXNN_of_and_nn 0xF 0x65, nofun⟩

/-- Only SYS builds an instruction that can be ill-formed. -/
theorem wellFormed_build (w : Word) :
    ∀ r ∈ opcodeTable, (r.build w).wellFormed = true ∨ r.mnemonic = "SYS" ∧ r.build w = .sys (fieldNNN w) := by
  simp [opcodeTable, opcodesFlow, opcodesLoadAlu, opcodesAddress, opcodesDevice, Instr.wellFormed]

/-- Settles O7: the word matches a row (`exists_row_of_decodeWord`), and is the encoding of what the row builds from it. -/
theorem encodeOfDecodeIsTheWord : Obligations.EncodeOfDecodeIsTheWord := by
  intro w i h
  obtain ⟨r, hr, hw, rfl, notSys⟩ := exists_row_of_decodeWord h
  have henc : encode (r.build w) = w := encode_build_of_hits w r hr hw
  refine ⟨?_, henc⟩
  obtain hwf | ⟨hsys, hb⟩ := wellFormed_build w r hr
  · exact hwf
  · obtain ⟨ne_cls, ne_ret⟩ := notSys hsys
    rw [hb] at henc ⊢
    have hE0 : fieldNNN w ≠ 0x0E0 := fun e => ne_cls (henc.symm.trans (by rw [e]; rfl))
    have hEE : fieldNNN w ≠ 0x0EE := fun e => ne_ret (henc.symm.trans (by rw [e]; rfl))
    exact (Bool.and_eq_true _ _).mpr ⟨bne_iff_ne.mpr hE0, bne_iff_ne.mpr hEE⟩

/-! ### Encode, then decode -/

/-- The pattern of an instruction (`EncodeMatches.pattern`) is the mask and value of the row that builds it. -/
theorem pattern_build (w : Word) : ∀ r ∈ opcodeTable, Laws.EncodeMatches.pattern (r.build w) = (r.mask, r.value) := by
  simp [opcodeTable, opcodesFlow, opcodesLoadAlu, opcodesAddress, opcodesDevice, Laws.EncodeMatches.pattern]

/-- An instruction that row k builds from its own encoding is what the encoding decodes to. -/
theorem decodeWord_encode_of_row {i : Instr} (k : Nat) (matching : Laws.EncodeMatches.Statement i)
    (hk : k < opcodeTable.length := by decide) (hsys : opcodeTable[k].mnemonic ≠ "SYS" := by decide)
    (hbuild : opcodeTable[k].build (encode i) = i := by
      simp [opcodeTable, opcodesFlow, opcodesLoadAlu, opcodesAddress, opcodesDevice, encode]) :
    decodeWord (encode i) = some i := by
  have hp := pattern_build (encode i) _ (List.getElem_mem hk)
  rw [hbuild] at hp
  rw [Laws.EncodeMatches.Statement, hp] at matching
  rw [decodeWord_of_row k hk hsys matching, hbuild]

/-- The word of a SYS row decodes to SYS where neither of the two rows before it matches (R97). -/
theorem decodeWord_sys {w : Word} (hw : w &&& 0xF000 = 0) (ne_cls : w ≠ 0x00E0) (ne_ret : w ≠ 0x00EE) :
    decodeWord w = some (.sys (fieldNNN w)) := by
  have hcls : ¬ opcodeTable[0].hits w = true := fun h => ne_cls ((OpcodeRow.hits_iff_of_full_mask rfl w).mp h)
  have hret : ¬ opcodeTable[1].hits w = true := fun h => ne_ret ((OpcodeRow.hits_iff_of_full_mask rfl w).mp h)
  have hsys : opcodeTable[2].hits w = true := (OpcodeRow.hits_iff w _).mpr hw
  have htable : opcodeTable = opcodeTable[0] :: opcodeTable[1] :: opcodeTable[2] :: opcodeTable.drop 3 := rfl
  rw [decodeWord, htable, List.find?_cons_of_neg hcls, List.find?_cons_of_neg hret, List.find?_cons_of_pos hsys]
  rfl

theorem decodeWord_encode_sys {nnn : Addr} (wf : (Instr.sys nnn).wellFormed = true) :
    decodeWord (encode (.sys nnn)) = some (.sys nnn) := by
  obtain ⟨hE0, hEE⟩ := (Bool.and_eq_true _ _).mp wf
  have hnnn : fieldNNN (encode (.sys nnn)) = nnn := (fields_wordNNN 0 nnn).2
  rw [decodeWord_sys (Laws.EncodeMatches.sys nnn) ?_ ?_, hnnn]
  · intro e
    exact bne_iff_ne.mp hE0 (hnnn.symm.trans (congrArg fieldNNN e))
  · intro e
    exact bne_iff_ne.mp hEE (hnnn.symm.trans (congrArg fieldNNN e))

open Laws in
/-- Settles O6: each instruction's encoding matches its own row, which reads the operands back. -/
theorem decodeOfEncodeIsTheInstruction : Obligations.DecodeOfEncodeIsTheInstruction := by
  intro i wf
  cases i with
  | cls => exact decodeWord_encode_of_row 0 EncodeMatches.cls
  | ret => exact decodeWord_encode_of_row 1 EncodeMatches.ret
  | sys nnn => exact decodeWord_encode_sys wf
  | jp nnn => exact decodeWord_encode_of_row 3 (EncodeMatches.jp nnn)
  | call nnn => exact decodeWord_encode_of_row 4 (EncodeMatches.call nnn)
  | seVxNn x nn => exact decodeWord_encode_of_row 5 (EncodeMatches.seVxNn x nn)
  | sneVxNn x nn => exact decodeWord_encode_of_row 6 (EncodeMatches.sneVxNn x nn)
  | seVxVy x y => exact decodeWord_encode_of_row 7 (EncodeMatches.seVxVy x y)
  | ldVxNn x nn => exact decodeWord_encode_of_row 8 (EncodeMatches.ldVxNn x nn)
  | addVxNn x nn => exact decodeWord_encode_of_row 9 (EncodeMatches.addVxNn x nn)
  | ldVxVy x y => exact decodeWord_encode_of_row 10 (EncodeMatches.ldVxVy x y)
  | orVxVy x y => exact decodeWord_encode_of_row 11 (EncodeMatches.orVxVy x y)
  | andVxVy x y => exact decodeWord_encode_of_row 12 (EncodeMatches.andVxVy x y)
  | xorVxVy x y => exact decodeWord_encode_of_row 13 (EncodeMatches.xorVxVy x y)
  | addVxVy x y => exact decodeWord_encode_of_row 14 (EncodeMatches.addVxVy x y)
  | subVxVy x y => exact decodeWord_encode_of_row 15 (EncodeMatches.subVxVy x y)
  | shrVx x y => exact decodeWord_encode_of_row 16 (EncodeMatches.shrVx x y)
  | subnVxVy x y => exact decodeWord_encode_of_row 17 (EncodeMatches.subnVxVy x y)
  | shlVx x y => exact decodeWord_encode_of_row 18 (EncodeMatches.shlVx x y)
  | sneVxVy x y => exact decodeWord_encode_of_row 19 (EncodeMatches.sneVxVy x y)
  | ldINnn nnn => exact decodeWord_encode_of_row 20 (EncodeMatches.ldINnn nnn)
  | jpV0Nnn nnn => exact decodeWord_encode_of_row 21 (EncodeMatches.jpV0Nnn nnn)
  | rndVxNn x nn => exact decodeWord_encode_of_row 22 (EncodeMatches.rndVxNn x nn)
  | drwVxVyN x y n => exact decodeWord_encode_of_row 23 (EncodeMatches.drwVxVyN x y n)
  | skpVx x => exact decodeWord_encode_of_row 24 (EncodeMatches.skpVx x)
  | sknpVx x => exact decodeWord_encode_of_row 25 (EncodeMatches.sknpVx x)
  | ldVxDt x => exact decodeWord_encode_of_row 26 (EncodeMatches.ldVxDt x)
  | ldVxK x => exact decodeWord_encode_of_row 27 (EncodeMatches.ldVxK x)
  | ldDtVx x => exact decodeWord_encode_of_row 28 (EncodeMatches.ldDtVx x)
  | ldStVx x => exact decodeWord_encode_of_row 29 (EncodeMatches.ldStVx x)
  | addIVx x => exact decodeWord_encode_of_row 30 (EncodeMatches.addIVx x)
  | ldFVx x => exact decodeWord_encode_of_row 31 (EncodeMatches.ldFVx x)
  | ldBVx x => exact decodeWord_encode_of_row 32 (EncodeMatches.ldBVx x)
  | ldMemVx x => exact decodeWord_encode_of_row 33 (EncodeMatches.ldMemVx x)
  | ldVxMem x => exact decodeWord_encode_of_row 34 (EncodeMatches.ldVxMem x)

/-! ## Rows as masks and values (R95) -/

/-- What a word decodes to has the word's pattern. -/
theorem and_mask_of_decodeWord {w : Word} {i : Instr} (h : decodeWord w = some i) :
    w &&& (Laws.EncodeMatches.pattern i).1 = (Laws.EncodeMatches.pattern i).2 := by
  obtain ⟨r, hr, hw, rfl, -⟩ := exists_row_of_decodeWord h
  rw [pattern_build w r hr]
  exact (OpcodeRow.hits_iff w r).mp hw

/-- For every row but SYS, the row's mask and value say when a word decodes to the row's instruction. -/
theorem decodeWord_row_iff (w : Word) (k : Nat) (hk : k < opcodeTable.length := by decide)
    (hsys : opcodeTable[k].mnemonic ≠ "SYS" := by decide) :
    decodeWord w = some (opcodeTable[k].build w) ↔ w &&& opcodeTable[k].mask = opcodeTable[k].value := by
  refine ⟨fun h => ?_, decodeWord_of_row k hk hsys⟩
  have matching := and_mask_of_decodeWord h
  rwa [pattern_build w _ (List.getElem_mem hk)] at matching

theorem decodeWord_sys_iff (w : Word) :
    decodeWord w = some (.sys (fieldNNN w)) ↔ w &&& 0xF000 = 0x0000 ∧ w ≠ 0x00E0 ∧ w ≠ 0x00EE := by
  refine ⟨fun h => ⟨and_mask_of_decodeWord h, ?_, ?_⟩, fun ⟨hw, ne_cls, ne_ret⟩ => decodeWord_sys hw ne_cls ne_ret⟩
  · rintro rfl
    exact absurd h (by decide)
  · rintro rfl
    exact absurd h (by decide)

/-- Settles O3: one row after the other (`decodeWord_row_iff`), with SYS apart. -/
theorem wordsMatchByMaskAndValue : Obligations.WordsMatchByMaskAndValue := fun w =>
  ⟨decodeWord_row_iff w 0, decodeWord_row_iff w 1, decodeWord_sys_iff w, decodeWord_row_iff w 3, decodeWord_row_iff w 4,
    decodeWord_row_iff w 5, decodeWord_row_iff w 6, decodeWord_row_iff w 7, decodeWord_row_iff w 8,
    decodeWord_row_iff w 9, decodeWord_row_iff w 10, decodeWord_row_iff w 11, decodeWord_row_iff w 12,
    decodeWord_row_iff w 13, decodeWord_row_iff w 14, decodeWord_row_iff w 15, decodeWord_row_iff w 16,
    decodeWord_row_iff w 17, decodeWord_row_iff w 18, decodeWord_row_iff w 19, decodeWord_row_iff w 20,
    decodeWord_row_iff w 21, decodeWord_row_iff w 22, decodeWord_row_iff w 23, decodeWord_row_iff w 24,
    decodeWord_row_iff w 25, decodeWord_row_iff w 26, decodeWord_row_iff w 27, decodeWord_row_iff w 28,
    decodeWord_row_iff w 29, decodeWord_row_iff w 30, decodeWord_row_iff w 31, decodeWord_row_iff w 32,
    decodeWord_row_iff w 33, decodeWord_row_iff w 34⟩

/-! ## Illegal words (R98) -/

/-! ### The masks as numbers -/

theorem and_op_toNat (w : Word) : (w &&& 0xF000).toNat = 4096 * (w.toNat / 4096) := by
  rw [(and_op_iff w _).mpr rfl, wordNNN_toNat, fieldOp_toNat]
  rfl

theorem and_op_n_toNat (w : Word) : (w &&& 0xF00F).toNat = 4096 * (w.toNat / 4096) + w.toNat % 16 := by
  obtain ⟨-, -, hn, -, -⟩ := fieldsAreSlicesOfTheWord w
  rw [(and_op_n_iff w _ _).mpr ⟨rfl, rfl⟩, wordXYN_toNat, fieldOp_toNat, hn]
  rfl

theorem and_op_nn_toNat (w : Word) : (w &&& 0xF0FF).toNat = 4096 * (w.toNat / 4096) + w.toNat % 256 := by
  obtain ⟨-, -, -, hnn, -⟩ := fieldsAreSlicesOfTheWord w
  rw [(and_op_nn_iff w _ _).mpr ⟨rfl, rfl⟩, wordXNN_toNat, fieldOp_toNat, hnn]
  rfl

/-! ### The rows of one opcode -/

/-- The rows of opcode op have mask m, and their low parts are those of the list. -/
def RowsOfOp (op : Nat) (m : Word) (lows : List Nat) : Prop :=
  (∀ r ∈ opcodeTable, r.value.toNat / 4096 = op → r.mask = m ∧ ∃ k ∈ lows, r.value.toNat = 4096 * op + k) ∧
    ∀ k ∈ lows, ∃ r ∈ opcodeTable, r.mask = m ∧ r.value.toNat = 4096 * op + k

theorem decodeWord_eq_none_iff_no_hit (w : Word) : decodeWord w = none ↔ ∀ r ∈ opcodeTable, w &&& r.mask ≠ r.value := by
  simp only [decodeWord, Option.map_eq_none_iff, List.find?_eq_none, OpcodeRow.hits_iff, ne_eq]

/-- A word that matches a row has the row's opcode. -/
theorem op_eq_of_hits {w : Word} {r : OpcodeRow} (hr : r ∈ opcodeTable) (hw : w &&& r.mask = r.value) :
    r.value.toNat / 4096 = w.toNat / 4096 := by
  have h := OpcodeRow.and_eq_of_hits ((OpcodeRow.hits_iff w r).mpr hw) (opcodeTable_fixes_op r hr)
  have := congrArg BitVec.toNat h
  rw [and_op_toNat, and_op_toNat] at this
  omega

/-- A word of an opcode decodes to nothing exactly when its low part is that of no row. -/
theorem decodeWord_eq_none_iff_of_op {w m : Word} {op low : Nat} {lows : List Nat} (rows : RowsOfOp op m lows)
    (hop : w.toNat / 4096 = op) (hlow : (w &&& m).toNat = 4096 * (w.toNat / 4096) + low) :
    decodeWord w = none ↔ low ∉ lows := by
  obtain ⟨all, each⟩ := rows
  rw [decodeWord_eq_none_iff_no_hit]
  constructor
  · intro none hin
    obtain ⟨r, hr, rfl, hv⟩ := each low hin
    exact none r hr (BitVec.eq_of_toNat_eq (by rw [hlow, hop, hv]))
  · intro notin r hr hw
    obtain ⟨rfl, k, hk, hv⟩ := all r hr ((op_eq_of_hits hr hw).trans hop)
    rw [hw, hv, hop] at hlow
    exact notin (Nat.add_left_cancel hlow ▸ hk)

theorem rowsOfOp_5 : RowsOfOp 5 0xF00F [0] := by unfold RowsOfOp; decide
theorem rowsOfOp_8 : RowsOfOp 8 0xF00F [0, 1, 2, 3, 4, 5, 6, 7, 0xE] := by unfold RowsOfOp; decide
theorem rowsOfOp_9 : RowsOfOp 9 0xF00F [0] := by unfold RowsOfOp; decide
theorem rowsOfOp_14 : RowsOfOp 14 0xF0FF [0x9E, 0xA1] := by unfold RowsOfOp; decide
theorem rowsOfOp_15 : RowsOfOp 15 0xF0FF [0x07, 0x0A, 0x15, 0x18, 0x1E, 0x29, 0x33, 0x55, 0x65] := by unfold RowsOfOp; decide

/-- Every other opcode has a row that fixes the opcode alone. -/
theorem exists_row_of_op :
    ∀ op < 16, op = 5 ∨ op = 8 ∨ op = 9 ∨ op = 14 ∨ op = 15 ∨
      op ∉ [5, 8, 9, 14, 15] ∧ ∃ r ∈ opcodeTable, r.mask = 0xF000 ∧ r.value.toNat = 4096 * op := by decide

/-- Settles O4, opcode by opcode: the rows of 5, 8, 9, E and F fix a low part too, and the other opcodes have no illegal
word. -/
theorem illegalWordsAreExactlyThese : Obligations.IllegalWordsAreExactlyThese := by
  intro w
  have hn := and_op_n_toNat w
  have hnn := and_op_nn_toNat w
  obtain h | h | h | h | h | ⟨others, r, hr, hmask, hv⟩ := exists_row_of_op (w.toNat / 4096) (by have := w.isLt; omega)
  · rw [decodeWord_eq_none_iff_of_op rowsOfOp_5 h hn]
    simp [h]
  · rw [decodeWord_eq_none_iff_of_op rowsOfOp_8 h hn]
    have complement : ∀ n < 16, n ∉ [0, 1, 2, 3, 4, 5, 6, 7, 0xE] ↔ n ∈ [0x8, 0x9, 0xA, 0xB, 0xC, 0xD, 0xF] := by decide
    rw [complement _ (Nat.mod_lt _ (by decide))]
    simp [h]
  · rw [decodeWord_eq_none_iff_of_op rowsOfOp_9 h hn]
    simp [h]
  · rw [decodeWord_eq_none_iff_of_op rowsOfOp_14 h hnn]
    simp [h]
  · rw [decodeWord_eq_none_iff_of_op rowsOfOp_15 h hnn]
    simp [h]
  · have hw : w &&& r.mask = r.value := BitVec.eq_of_toNat_eq (by rw [hmask, and_op_toNat, hv])
    have legal : decodeWord w ≠ none := fun none => (decodeWord_eq_none_iff_no_hit w).mp none r hr hw
    simp only [List.mem_cons, not_or] at others
    simp [legal, others]

end Sys2Proof
end

section
/-! PROOFS of 20_memory.md: the canonical form (log 8), and the bounds check of the instructions that access memory (R67, R225). -/

namespace Sys2Proof.Machine

/-! ## Outcomes -/

/-- An outcome has at most one next state. -/
theorem eq_of_next {r : Result} {t u : State} (ht : r = .next t) (hu : r = .next u) : t = u :=
  Host.Outcome.next.inj (ht.symm.trans hu)

theorem Safe.of_running {s : State} (h : s.MODE = .running) : Safe s := by
  rw [Safe, h]
  decide

/-! ## The canonical form -/

theorem Memory.wf_cons {c : Host.Cell} {m : Memory} (h : Memory.wf (c :: m)) :
    (∀ d ∈ m, c.1 < d.1) ∧ c.2 ≠ Memory.unlisted ∧ Memory.wf m := by
  obtain ⟨hp, hc⟩ := h
  rw [List.pairwise_cons] at hp
  exact ⟨hp.1, (hc c List.mem_cons_self).2, hp.2, fun d hd => hc d (List.mem_cons_of_mem c hd)⟩

@[simp] theorem Memory.read_head (c : Host.Cell) (m : Memory) : Memory.read (c :: m) c.1 = c.2 := if_pos rfl

/-- The first cell of a canonical memory shows in the reads: no memory whose cells all lie above its address reads like it. -/
theorem Memory.exists_read_ne {c : Host.Cell} {m q : Memory} (h : Memory.wf (c :: m)) (hq : ∀ d ∈ q, c.1 < d.1) :
    Memory.read (c :: m) c.1 ≠ Memory.read q c.1 := by
  obtain ⟨-, hc, -⟩ := Memory.wf_cons h
  rwa [Memory.read_head, Memory.read_of_lt q c.1 hq]

/-- Settles O27, by induction on the cells: the first cells agree in address and byte, and the rest read alike. -/
theorem canonicalMemoryIsItsReads : Obligations.CanonicalMemoryIsItsReads := by
  intro m
  induction m with
  | nil =>
    intro q _ hq same
    cases q with
    | nil => rfl
    | cons d q => exact absurd (same d.1).symm (Memory.exists_read_ne hq nofun)
  | cons c m ih =>
    intro q hm hq same
    obtain ⟨above_c, -, hm'⟩ := Memory.wf_cons hm
    cases q with
    | nil => exact absurd (same c.1) (Memory.exists_read_ne hm nofun)
    | cons d q =>
      obtain ⟨above_d, -, hq'⟩ := Memory.wf_cons hq
      obtain hlt | haddr | hlt := Nat.lt_trichotomy c.1 d.1
      · have below : ∀ e ∈ d :: q, c.1 < e.1 := List.forall_mem_cons.mpr ⟨hlt, fun e he => hlt.trans (above_d e he)⟩
        exact absurd (same c.1) (Memory.exists_read_ne hm below)
      · have hcd : c = d := Prod.ext haddr <| by
          have := same c.1
          rwa [Memory.read_head, haddr, Memory.read_head] at this
        subst hcd
        have rest (a : Nat) : Memory.read m a = Memory.read q a := by
          by_cases ha : c.1 = a
          · rw [Memory.read_of_lt m a (ha ▸ above_c), Memory.read_of_lt q a (ha ▸ above_d)]
          · simpa only [Memory.read, if_neg ha] using same a
        rw [ih q hm' hq' rest]
      · have below : ∀ e ∈ c :: m, d.1 < e.1 := List.forall_mem_cons.mpr ⟨hlt, fun e he => hlt.trans (above_c e he)⟩
        exact absurd (same d.1).symm (Memory.exists_read_ne hq below)

/-! ## The bounds check -/

/-- kmax of R67: the highest offset from I at which the instruction accesses memory, if it accesses memory at I at all. -/
def lastOffset : Instr → Option Nat
  | .ldBVx _ => some 2
  | .ldMemVx x | .ldVxMem x => some x.val
  | .drwVxVyN _ _ n => if n.toNat > 0 then some (n.toNat - 1) else none
  | _ => none

theorem lastOffset_le {i : Instr} {kmax : Nat} (h : lastOffset i = some kmax) : kmax ≤ 15 := by
  cases i with
  | ldBVx x =>
    cases h
    decide
  | ldMemVx x | ldVxMem x =>
    cases h
    exact Nat.le_of_lt_succ x.isLt
  | drwVxVyN x y n =>
    have := n.isLt
    simp only [lastOffset, Option.ite_none_right_eq_some, Option.some.injEq] at h
    omega
  | _ => cases h

/-- An access beyond memory is the exception of R225, before any transfer. -/
theorem exec_of_beyond {i : Instr} {kmax : Nat} {s : State} (h : lastOffset i = some kmax) (hb : 0xFFF < s.I.toNat + kmax) :
    exec i s = .next (dataOutOfBounds s (encode i) kmax) := by
  have beyond := (beyondMemory_iff s kmax).mpr hb
  cases i with
  | ldBVx | ldMemVx | ldVxMem =>
    cases h
    exact if_pos beyond
  | drwVxVyN x y n =>
    simp only [lastOffset, Option.ite_none_right_eq_some, Option.some.injEq] at h
    obtain ⟨hn, rfl⟩ := h
    exact if_pos (by simp [hn, beyond])
  | _ => cases h

theorem beyondMemory_eq_false {s : State} {kmax : Nat} (h : s.I.toNat + kmax ≤ 0xFFF) : beyondMemory s kmax = false :=
  Bool.eq_false_of_not_eq_true fun hb => absurd ((beyondMemory_iff s kmax).mp hb) (by omega)

theorem exec_ldBVx_inside {s : State} (x : RegIdx) (h : s.I.toNat + 2 ≤ 0xFFF) :
    exec (.ldBVx x) s = .next (advance (storeAtI s (bcdDigits (readV s x)))) :=
  if_neg (by rw [beyondMemory_eq_false h]; decide)

theorem exec_ldMemVx_inside {s : State} {x : RegIdx} (h : s.I.toNat + x.val ≤ 0xFFF) :
    exec (.ldMemVx x) s = .next (advance (storeAtI s (registersThrough s x))) :=
  if_neg (by rw [beyondMemory_eq_false h]; decide)

theorem exec_ldVxMem_inside {s : State} {x : RegIdx} (h : s.I.toNat + x.val ≤ 0xFFF) :
    exec (.ldVxMem x) s = .next (advance (loadThrough s x)) :=
  if_neg (by rw [beyondMemory_eq_false h]; decide)

theorem exec_drwVxVyN_inside {s : State} (x y : RegIdx) {n : BitVec 4} (h : n = 0 ∨ s.I.toNat + n.toNat - 1 ≤ 0xFFF) :
    exec (.drwVxVyN x y n) s =
      .next (advance (emit (writeVF { s with FB := (drawn s x y n).1 } (drawn s x y n).2) .fbChanged)) := by
  refine if_neg fun hb => ?_
  obtain ⟨hn, hb⟩ := (Bool.and_eq_true _ _).mp hb
  have hn := of_decide_eq_true hn
  have hb := (beyondMemory_iff s _).mp hb
  obtain rfl | h := h
  · exact absurd hn (by decide)
  · omega

/-- Settles O50: an access beyond memory is the exception (`exec_of_beyond`), whose recorded address is the unwrapped sum. -/
theorem dataBeyondMemoryHalts : Obligations.DataBeyondMemoryHalts := by
  intro s i kmax hi hb
  have offset : lastOffset i = some kmax := by
    obtain ⟨x, rfl, rfl⟩ | ⟨x, rfl, rfl⟩ | ⟨x, rfl, rfl⟩ | ⟨x, y, n, rfl, hn⟩ := hi
    · rfl
    · rfl
    · rfl
    · simp [lastOffset, hn]
  exact ⟨_, exec_of_beyond offset hb, rfl, rfl, rfl, rfl, excAddr_toNat s kmax (lastOffset_le offset)⟩

/-! ## Stores and loads inside memory (42_index_memory.md) -/

theorem advance_goesOn_two (s : State) : GoesOn 2 s (advance s) := ⟨advance_goesOn s, rfl⟩

theorem bcdDigits_toNat (v : Byte) :
    ∃ h t o : Byte, bcdDigits v = [h, t, o] ∧ h.toNat = v.toNat / 100 ∧ t.toNat = v.toNat / 10 % 10 ∧
      o.toNat = v.toNat % 10 := by
  have := v.isLt
  refine ⟨_, _, _, rfl, ?_, ?_, ?_⟩
  all_goals
    rw [BitVec.toNat_ofNat]
    omega

/-- Settles O47: the three digits are stored at I upward (`storeAtI_read`). -/
theorem decimalDigitsAreStored : Obligations.DecimalDigitsAreStored := by
  intro s x hm hI
  obtain ⟨h, t, o, hbytes, hh, ht, ho⟩ := bcdDigits_toNat (readV s x)
  have hexec := exec_ldBVx_inside x hI
  rw [hbytes] at hexec
  have hfits : s.I.toNat + [h, t, o].length ≤ 4096 := Nat.succ_le_succ hI
  obtain ⟨stored, outside⟩ := storeAtI_read s [h, t, o] hm hfits
  refine ⟨_, hexec, advance_goesOn_two _, ?_, ?_, ?_, outside, rfl⟩
  · exact (congrArg BitVec.toNat (stored 0 (by simp))).trans hh
  · exact (congrArg BitVec.toNat (stored 1 (by simp))).trans ht
  · exact (congrArg BitVec.toNat (stored 2 (by simp))).trans ho

/-- What FX55 stores inside memory: V[k] at I + k, and nothing elsewhere. -/
theorem storeAtI_registersThrough {s : State} {x : RegIdx} (hm : Memory.wf s.MEM) (hI : s.I.toNat + x.val ≤ 0xFFF) :
    (∀ k, k ≤ x → (storeAtI s (registersThrough s x)).MEM.read (effectiveAddr s k.val) = readV s k) ∧
      KeepsMemoryOutside (effectiveAddr s 0) (x.val + 1) s (storeAtI s (registersThrough s x)) := by
  have hlen := registersThrough_length s x
  obtain ⟨stored, outside⟩ := storeAtI_read s (registersThrough s x) hm (by omega)
  refine ⟨fun k hk => ?_, hlen ▸ outside⟩
  have hlt : k.val < (registersThrough s x).length := by
    rw [hlen]
    exact Nat.lt_succ_of_le hk
  exact (stored k.val hlt).trans (registersThrough_get s x k hlt)

/-- Settles O48: what is stored is V0 to Vx (`storeAtI_registersThrough`). -/
theorem registersAreStored : Obligations.RegistersAreStored := by
  intro s x hm hI
  obtain ⟨stored, outside⟩ := storeAtI_registersThrough hm hI
  exact ⟨_, exec_ldMemVx_inside hI, advance_goesOn_two _, stored, outside, rfl⟩

/-- Settles O28: the next pc addresses the stored V[k], and V[j] lies behind it. -/
theorem nextFetchSeesStoredBytes : Obligations.NextFetchSeesStoredBytes := by
  intro s x k j hm hI hj hjx hpc
  obtain ⟨stored, -⟩ := storeAtI_registersThrough hm hI
  have hkx : k ≤ x := le_trans (Fin.le_def.mpr (by omega)) hjx
  have hnext := (advance_goesOn (storeAtI s (registersThrough s x))).trans hpc
  have hbehind : effectiveAddr s k.val + 1 = effectiveAddr s j.val := by
    rw [hj]
    rfl
  refine ⟨_, exec_ldMemVx_inside hI, ?_⟩
  rw [fetchWord, hnext, hbehind, advance_MEM, stored k hkx, stored j hjx]

/-- Settles O49: each register receives its byte or stays (`readV_loadThrough`). -/
theorem registersAreLoaded : Obligations.RegistersAreLoaded := by
  intro s x hI
  refine ⟨_, exec_ldVxMem_inside hI, advance_goesOn_two _, fun k hk => ?_, fun k hk => ?_, rfl, fun _ => rfl⟩
  · rw [readV_advance, readV_loadThrough, if_pos hk]
    rfl
  · rw [readV_advance, readV_loadThrough, if_neg (not_le.mpr hk)]

end Sys2Proof.Machine
end

section
/-! PROOFS of 60_exceptions.md and of the whole machine: which exception an instruction raises (R220 to R231), and the invariant of every action. -/

namespace Sys2Proof.Machine

/-! ## The ways an instruction ends (R94 point 5, R226) -/

/-- The exceptions instruction i raises in s, each with its condition (R223 to R225). -/
inductive Raises (s : State) : Instr → Exc → Prop where
  | underflow (empty : s.SP.val = 0) : Raises s .ret (.stackUnderflow (encode .ret))
  | overflow (nnn : Addr) (full : s.SP.val = 16) : Raises s (.call nnn) (.stackOverflow (encode (.call nnn)))
  | beyond {i : Instr} {kmax : Nat} (offset : lastOffset i = some kmax) (beyond : 0xFFF < s.I.toNat + kmax) :
    Raises s i (.memoryOutOfBounds (encode i) (BitVec.ofNat 13 (effectiveAddr s kmax)))

/-- The instruction completes: MODE is Running and no fault register has changed. -/
def Completes (s t : State) : Prop := t.MODE = .running ∧ KeepsFaultRegisters s t

theorem goto_completes (s : State) (a : Addr) : Completes s (goto s a) := ⟨rfl, rfl, rfl, rfl, rfl⟩

theorem skipIf_completes (s : State) (c : Bool) : Completes s (skipIf s c) := by
  cases c
  · exact goto_completes s _
  · exact goto_completes s _

/-- An instruction completes, or is an FX0A that waits, or raises one of its exceptions. -/
theorem exec_cases (i : Instr) (s : State) :
    (∃ t, exec i s = .next t ∧ Completes s t) ∨
      (∃ x, i = .ldVxK x ∧ exec i s = .next { s with MODE := .waitingForKey }) ∨
        ∃ e, Raises s i e ∧ exec i s = .next (takeException s e) := by
  have access {kmax : Nat} (h : lastOffset i = some kmax)
      (inside : s.I.toNat + kmax ≤ 0xFFF → ∃ t, exec i s = .next t ∧ Completes s t) :
      (∃ t, exec i s = .next t ∧ Completes s t) ∨ ∃ e, Raises s i e ∧ exec i s = .next (takeException s e) := by
    obtain beyond | le := Nat.lt_or_ge 0xFFF (s.I.toNat + kmax)
    · exact .inr ⟨_, .beyond h beyond, exec_of_beyond h beyond⟩
    · exact .inl (inside le)
  cases i with
  | ret =>
    obtain ⟨empty, hp⟩ | ⟨_, k, -, hp⟩ := pop_spec s <;> simp only [exec, execRet, hp]
    · exact .inr (.inr ⟨_, .underflow empty, rfl⟩)
    · exact .inl ⟨_, rfl, goto_completes { s with SP := k } _⟩
  | call nnn =>
    obtain ⟨full, hp⟩ | ⟨_, k, -, hp⟩ := push_spec s (s.pc + 2) <;> simp only [exec, execCall, hp]
    · exact .inr (.inr ⟨_, .overflow nnn full, rfl⟩)
    · exact .inl ⟨_, rfl, rfl, rfl, rfl, rfl, rfl⟩
  | seVxNn | sneVxNn | seVxVy | sneVxVy | skpVx | sknpVx => exact .inl ⟨_, rfl, skipIf_completes s _⟩
  | ldVxK x =>
    simp only [exec, execLdVxK]
    split
    · exact .inr (.inl ⟨x, rfl, rfl⟩)
    · exact .inl ⟨_, rfl, rfl, rfl, rfl, rfl, rfl⟩
  | addIVx =>
    refine .inl ⟨_, rfl, rfl, ?_⟩
    split
    · exact ⟨rfl, rfl, rfl, rfl⟩
    · exact ⟨rfl, rfl, rfl, rfl⟩
  | ldBVx x => exact (access rfl fun h => ⟨_, exec_ldBVx_inside x h, rfl, rfl, rfl, rfl, rfl⟩).imp_right .inr
  | ldMemVx => exact (access rfl fun h => ⟨_, exec_ldMemVx_inside h, rfl, rfl, rfl, rfl, rfl⟩).imp_right .inr
  | ldVxMem => exact (access rfl fun h => ⟨_, exec_ldVxMem_inside h, rfl, rfl, rfl, rfl, rfl⟩).imp_right .inr
  | drwVxVyN x y n =>
    by_cases hn : n = 0
    · exact .inl ⟨_, exec_drwVxVyN_inside x y (.inl hn), rfl, rfl, rfl, rfl, rfl⟩
    · have hpos : n.toNat > 0 := Nat.pos_of_ne_zero fun h => hn (BitVec.eq_of_toNat_eq h)
      refine (access (if_pos hpos) fun h => ?_).imp_right .inr
      exact ⟨_, exec_drwVxVyN_inside x y (.inr (by omega)), rfl, rfl, rfl, rfl, rfl⟩
  | _ => exact .inl ⟨_, rfl, rfl, rfl, rfl, rfl, rfl⟩

theorem waiting_safe (s : State) : Safe { s with MODE := .waitingForKey } := show Mode.waitingForKey ≠ .halted by decide

theorem Raises.excInstr_eq {s : State} {i : Instr} {e : Exc} (h : Raises s i e) : excInstr s e = encode i := by
  cases h <;> rfl

/-- Settles O19: the fault registers change only where an exception is raised, and those are the ones of `Raises`. -/
theorem faultRegistersChangeOnlyWithTheHalt : Obligations.FaultRegistersChangeOnlyWithTheHalt := by
  intro i s t ht
  obtain ⟨u, hu, hmode, keeps⟩ | ⟨x, rfl, hu⟩ | ⟨e, raises, hu⟩ := exec_cases i s <;>
    obtain rfl := eq_of_next ht hu
  · exact ⟨fun _ => ⟨keeps, .inl hmode⟩, fun halted => absurd (Safe.of_running hmode) halted⟩
  · exact ⟨fun _ => ⟨⟨rfl, rfl, rfl, rfl⟩, .inr ⟨x, rfl⟩⟩, fun halted => absurd (waiting_safe s) halted⟩
  · refine ⟨fun safe => absurd rfl safe, fun _ => ⟨rfl, raises.excInstr_eq, ?_⟩⟩
    cases raises with
    | underflow => exact .inl ⟨rfl, rfl⟩
    | overflow nnn => exact .inr (.inl ⟨nnn, rfl, rfl⟩)
    | beyond offset =>
      refine .inr (.inr ⟨rfl, ?_⟩)
      cases i with
      | drwVxVyN x y n => exact .inl ⟨x, y, n, rfl⟩
      | ldBVx x => exact .inr (.inl ⟨x, rfl⟩)
      | ldMemVx x => exact .inr (.inr (.inl ⟨x, rfl⟩))
      | ldVxMem x => exact .inr (.inr (.inr ⟨x, rfl⟩))
      | _ => cases offset

/-! ## The steps of the Interpreter (30_encoding.md R94) -/

/-- The Interpreter steps when nothing is pending, and when step_en is the oldest pending action. -/
theorem step_eq_interpreterStep {s : State} (h : s.inputs = [] ∨ s.inputs.head? = some .stepEn) :
    step s = interpreterStep { s with inputs := s.inputs.tail } := by
  obtain ⟨none, hstep⟩ | ⟨a, rest, hin, hstep⟩ := step_cases s
  · have unchanged : { s with inputs := s.inputs.tail } = s := by rw [none, List.tail_nil, ← none]
    rw [hstep, unchanged]
  · obtain rfl : a = .stepEn := by simpa [hin] using h
    rw [hstep, hin]
    rfl

theorem step_of_pending {s : State} {a : Input} {rest : List Input} (h : s.inputs = a :: rest) :
    step s = perform { s with inputs := rest } a := by
  simp only [step, h]

theorem interpreterStep_of_decodeWord {s : State} {i : Instr} (safe : Safe s) (hpc : s.pc ≠ 0xFFF)
    (hi : decodeWord (fetchWord s) = some i) : interpreterStep s = exec i s := by
  obtain ⟨halted, -⟩ | ⟨-, top, -⟩ | ⟨-, -, none, -⟩ | ⟨-, -, none, -⟩ | ⟨-, -, j, hj, h⟩ := interpreterStep_cases s
  · exact absurd halted safe
  · exact absurd top hpc
  · exact absurd (hi.symm.trans none) nofun
  · exact absurd (hi.symm.trans none) nofun
  · rw [h, Option.some.inj (hj.symm.trans hi)]

/-- Settles O9: taking the pending step_en off changes neither MODE nor the fetched word. -/
theorem stepRunsTheDecodedInstruction : Obligations.StepRunsTheDecodedInstruction := by
  intro s i pending safe hpc hi
  rw [step_eq_interpreterStep pending]
  exact interpreterStep_of_decodeWord (s := { s with inputs := s.inputs.tail }) safe hpc hi

/-- The two bytes `withFetchWord` places are the ones the next step fetches. -/
theorem fetchWord_withFetchWord (s : State) (w : Word) (hm : Memory.wf s.MEM) :
    fetchWord (s.withFetchWord 16 w.toNat) = w ∧ (s.withFetchWord 16 w.toNat).pc ≠ 0xFFF := by
  have hpc : (s.withFetchWord 16 w.toNat).pc ≠ 0xFFF := by
    simp only [State.withFetchWord]
    split
    · decide
    · assumption
  have hw : BitVec.ofNat 16 (w.toNat % 2 ^ 16) = w := by
    rw [Nat.mod_eq_of_lt w.isLt, BitVec.ofNat_toNat, BitVec.setWidth_eq]
  have hmem : (s.withFetchWord 16 w.toNat).MEM =
      s.MEM.writeBytes (s.withFetchWord 16 w.toNat).pc.toNat [w.extractLsb' 8 8, w.extractLsb' 0 8] := by
    simp only [State.withFetchWord, hw]
  have hfits : (s.withFetchWord 16 w.toNat).pc.toNat + 2 ≤ Memory.size := by
    have := (s.withFetchWord 16 w.toNat).pc.isLt
    have : (s.withFetchWord 16 w.toNat).pc.toNat ≠ 0xFFF := fun h => hpc (BitVec.eq_of_toNat_eq h)
    rw [Memory.size]
    omega
  have read := fun k hk => Memory.read_writeBytes_inside s.MEM _ [w.extractLsb' 8 8, w.extractLsb' 0 8] k hk hfits hm
  refine ⟨?_, hpc⟩
  rw [fetchWord, hmem]
  exact (congrArg₂ _ (read 0 (by simp)) (read 1 (by simp))).trans BitVec.extractLsb'_append_extractLsb'

theorem withFetchWord_safe (s : State) (n w : Nat) : Safe (s.withFetchWord n w) := by
  simp only [Safe, State.withFetchWord]
  split
  · decide
  · assumption

/-- Settles O10: in the state with the word placed the Interpreter can fetch, and fetches the word. -/
theorem placedWordRunsNext : Obligations.PlacedWordRunsNext := by
  intro s w i hm hi
  obtain ⟨hw, hpc⟩ := fetchWord_withFetchWord s w hm
  exact stepRunsTheDecodedInstruction _ i (.inl rfl) (withFetchWord_safe s 16 w.toNat) hpc (by rw [hw, hi])

/-- Settles O11, by the cases of the step: the fetch at the top is the one with CAUSE 1, and an instruction has other causes (O19). -/
theorem fetchFailsExactlyAtTheTop : Obligations.FetchFailsExactlyAtTheTop := by
  intro s safe
  obtain ⟨halted, -⟩ | ⟨-, top, h⟩ | ⟨-, below, -, -, h⟩ | ⟨-, below, -, -, h⟩ | ⟨-, below, i, -, h⟩ :=
    interpreterStep_cases s
  · exact absurd halted safe
  · exact ⟨fun _ => ⟨_, h, rfl, rfl, top, rfl, rfl⟩, fun below => absurd top below⟩
  · refine ⟨fun top => absurd top below, fun _ t ht _ => ?_⟩
    obtain rfl := eq_of_next ht h
    exact show (2 : BitVec 3) ≠ 1 by decide
  · refine ⟨fun top => absurd top below, fun _ t ht halted => ?_⟩
    obtain rfl := eq_of_next ht h
    exact absurd (advance_safe _) halted
  · refine ⟨fun top => absurd top below, fun _ t ht halted => ?_⟩
    obtain ⟨-, -, cause⟩ := (faultRegistersChangeOnlyWithTheHalt i s t (h.symm.trans ht)).2 halted
    obtain ⟨-, hc⟩ | ⟨-, -, hc⟩ | ⟨hc, -⟩ := cause <;> rw [hc] <;> decide

/-- Settles O12, by the cases of the step: only the two of an illegal word meet the premises. -/
theorem illegalWordHaltsOrIsSkipped : Obligations.IllegalWordHaltsOrIsSkipped := by
  intro s safe below none
  obtain ⟨halted, -⟩ | ⟨-, top, -⟩ | ⟨-, -, -, halt, h⟩ | ⟨-, -, -, skip, h⟩ | ⟨-, -, i, some, -⟩ := interpreterStep_cases s
  · exact absurd halted safe
  · exact absurd top below
  · exact ⟨fun _ => ⟨_, h, rfl, rfl, rfl, rfl, rfl⟩, fun skip => absurd (halt.symm.trans skip) (by decide)⟩
  · exact ⟨fun halt => absurd (halt.symm.trans skip) (by decide), fun _ => ⟨_, h, advance_goesOn_two _, fun _ => rfl, rfl⟩⟩
  · exact absurd (none.symm.trans some) nofun

/-! ## The invariant -/

/-- What an exception must be for the halt to keep the invariant: at the top of memory, or with the fetched word and on the
condition of its cause (R220, R228). -/
def Fits (s : State) : Exc → Prop
  | .fetchOutOfBounds => s.pc = 0xFFF
  | .illegalOpcode w => w = fetchWord s
  | .stackOverflow w => w = fetchWord s ∧ s.SP.val = 16
  | .stackUnderflow w => w = fetchWord s ∧ s.SP.val = 0
  | .memoryOutOfBounds w a => w = fetchWord s ∧ 0xFFF < a.toNat ∧ a.toNat ≤ 0x100E

theorem Inv.no_fault {s : State} (h : Inv s) (safe : Safe s) : s.CAUSE = 0 ∧ s.EPC = 0 ∧ s.EINSTR = 0 ∧ s.EADDR = 0 := by
  have hc : s.CAUSE = 0 := of_not_not fun hne => safe (h.halted_iff.mpr hne)
  exact ⟨hc, h.no_cause hc⟩

/-- A state that is not halted, with clean fault registers, has the invariant if its memory is canonical and, where it waits,
it addresses an FX0A. -/
theorem inv_of_safe {t : State} (safe : Safe t) (hm : Memory.wf t.MEM)
    (clean : t.CAUSE = 0 ∧ t.EPC = 0 ∧ t.EINSTR = 0 ∧ t.EADDR = 0)
    (waiting : t.MODE = .waitingForKey → t.pc ≠ 0xFFF ∧ ∃ x, decodeWord (fetchWord t) = some (.ldVxK x)) : Inv t := by
  obtain ⟨hc, hepc, heinstr, headdr⟩ := clean
  have cause_ne {c : BitVec 3} (h : c ≠ 0) {P : Prop} : t.CAUSE = c → P := fun e => absurd (e.symm.trans hc) h
  exact {
    mem_wf := hm
    cause_legal := by rw [hc]; decide
    halted_iff := ⟨fun halted => absurd halted safe, fun hne => absurd hc hne⟩
    epc_current := fun halted => absurd halted safe
    fetch_cause := cause_ne (by decide)
    einstr_fetched := fun h => absurd h (by rw [hc]; decide)
    stack_causes := ⟨cause_ne (by decide), cause_ne (by decide)⟩
    eaddr_range := ⟨cause_ne (by decide), by rw [headdr]; decide⟩
    no_cause := fun _ => ⟨hepc, heinstr, headdr⟩
    waiting := waiting }

/-- Taking an exception that fits keeps the invariant. -/
theorem Inv.takeException {s : State} (h : Inv s) (safe : Safe s) {e : Exc} (fits : Fits s e) : Inv (takeException s e) := by
  obtain ⟨-, -, -, headdr⟩ := h.no_fault safe
  have code : (causeCode e).toNat ≤ 5 ∧ causeCode e ≠ 0 := by
    cases e <;> simp [causeCode]
  exact {
    mem_wf := h.mem_wf
    cause_legal := code.1
    halted_iff := ⟨fun _ => code.2, fun _ => rfl⟩
    epc_current := fun _ => rfl
    fetch_cause := fun hc => by
      cases e with
      | fetchOutOfBounds => exact ⟨fits, rfl⟩
      | _ => exact absurd hc (by simp [causeCode])
    einstr_fetched := fun hc => by
      cases e with
      | fetchOutOfBounds => exact absurd hc (by simp [causeCode])
      | illegalOpcode => exact fits
      | _ => exact fits.1
    stack_causes := by
      cases e with
      | stackOverflow => exact ⟨fun _ => fits.2, fun hc => absurd hc (by simp [causeCode])⟩
      | stackUnderflow => exact ⟨fun hc => absurd hc (by simp [causeCode]), fun _ => fits.2⟩
      | _ => exact ⟨fun hc => absurd hc (by simp [causeCode]), fun hc => absurd hc (by simp [causeCode])⟩
    eaddr_range := by
      cases e with
      | memoryOutOfBounds => exact ⟨fun _ => fits.2.1, fits.2.2⟩
      | fetchOutOfBounds => exact ⟨fun _ => by simp [excAddr], by simp [excAddr]⟩
      | _ => exact ⟨fun hc => absurd hc (by simp [causeCode]), by simp [excAddr, headdr]⟩
    no_cause := fun hc => absurd hc code.2
    waiting := nofun }

/-- An exception that an instruction raises fits the state, where the instruction is the one fetched. -/
theorem Raises.fits {s : State} {i : Instr} {e : Exc} (h : Raises s i e) (hi : decodeWord (fetchWord s) = some i) :
    Fits s e := by
  obtain ⟨-, hw⟩ := encodeOfDecodeIsTheWord _ _ hi
  cases h with
  | underflow empty => exact ⟨hw, empty⟩
  | overflow nnn full => exact ⟨hw, full⟩
  | @beyond _ kmax offset beyond =>
    have hle := lastOffset_le offset
    have haddr := excAddr_toNat s kmax hle
    have := s.I.isLt
    exact ⟨hw, by omega, by omega⟩

/-- Every instruction keeps the memory canonical: only FX33 and FX55 write it, and only inside the address space. -/
theorem exec_keeps_wf {i : Instr} {s t : State} (hm : Memory.wf s.MEM) (h : exec i s = .next t) : Memory.wf t.MEM := by
  obtain ⟨u, hu, writes⟩ := exec_writesOnly i s
  obtain rfl := eq_of_next h hu
  have store (kmax : Nat) (hoff : lastOffset i = some kmax) (l : List Byte) (hl : l.length = kmax + 1)
      (inside : s.I.toNat + kmax ≤ 0xFFF → exec i s = .next (advance (storeAtI s l))) : Memory.wf t.MEM := by
    obtain beyond | le := Nat.lt_or_ge 0xFFF (s.I.toNat + kmax)
    · obtain rfl := eq_of_next h (exec_of_beyond hoff beyond)
      exact hm
    · obtain rfl := eq_of_next h (inside le)
      exact storeAtI_wf s l hm (by omega)
  cases i with
  | ldBVx x => exact store 2 rfl _ rfl (exec_ldBVx_inside x)
  | ldMemVx x => exact store x.val rfl _ (registersThrough_length s x) exec_ldMemVx_inside
  | _ =>
    rw [writes.memory id]
    exact hm

/-- The fetched instruction keeps the invariant. -/
theorem Inv.exec {s t : State} {i : Instr} (h : Inv s) (safe : Safe s) (hpc : s.pc ≠ 0xFFF)
    (hi : decodeWord (fetchWord s) = some i) (ht : exec i s = .next t) : Inv t := by
  have hm := exec_keeps_wf h.mem_wf ht
  have clean := h.no_fault safe
  obtain ⟨u, hu, hmode, hc, hepc, heinstr, headdr⟩ | ⟨x, rfl, hu⟩ | ⟨e, raises, hu⟩ := exec_cases i s <;>
    obtain rfl := eq_of_next ht hu
  · exact inv_of_safe (.of_running hmode) hm (by rwa [hc, hepc, heinstr, headdr]) fun waits =>
      absurd (hmode.symm.trans waits) (by decide)
  · exact inv_of_safe (waiting_safe s) hm clean fun _ => ⟨hpc, x, hi⟩
  · exact h.takeException safe (raises.fits hi)

theorem Inv.interpreterStep {s t : State} (h : Inv s) (ht : interpreterStep s = .next t) : Inv t := by
  obtain ⟨-, hu⟩ | ⟨safe, top, hu⟩ | ⟨safe, -, -, -, hu⟩ | ⟨safe, -, -, -, hu⟩ | ⟨safe, hpc, i, hi, hu⟩ :=
    interpreterStep_cases s
  · obtain rfl := eq_of_next ht hu
    exact h
  · obtain rfl := eq_of_next ht hu
    exact h.takeException safe top
  · obtain rfl := eq_of_next ht hu
    exact h.takeException safe rfl
  · obtain rfl := eq_of_next ht hu
    exact inv_of_safe (advance_safe _) h.mem_wf (h.no_fault safe) nofun
  · exact h.exec safe hpc hi (hu.symm.trans ht)

/-- The boot state has the invariant, whatever the host's side of it is. -/
theorem inv_boot (cfg : Config) (rom : List Byte) (hrom : rom.length ≤ romMax) (inputs : List Input) (events : List Event)
    (draws : Nat) : Inv { State.boot cfg rom with inputs := inputs, events := events, draws := draws } :=
  inv_of_safe (.of_running rfl) (bootMemory_wf cfg rom hrom) ⟨rfl, rfl, rfl, rfl⟩ nofun

/-- Settles O17: reset leaves clean fault registers, MODE = Running and a canonical image (`bootMemory_wf`). -/
theorem resetHasTheInvariant : Obligations.ResetHasTheInvariant :=
  ⟨fun cfg rom hrom => inv_boot cfg rom hrom [] [] 0, inv_boot defaultConfig [] (Nat.zero_le _) [] [] 0⟩

/-- Every action at the inputs keeps the invariant; the tick and the key write touch nothing it speaks of. -/
theorem Inv.perform {s t : State} (h : Inv s) (a : Input) (ht : perform s a = .next t) : Inv t := by
  cases a with
  | stepEn => exact h.interpreterStep ht
  | tick60 =>
    obtain rfl := Host.Outcome.next.inj ht
    exact { h with }
  | keyWr k b =>
    obtain rfl := Host.Outcome.next.inj ht
    exact { h with }
  | rst rom =>
    obtain ⟨-, hr⟩ | ⟨hrom, hr⟩ := resetAction_cases s rom
    · exact absurd (ht.symm.trans hr) nofun
    · obtain rfl := eq_of_next ht hr
      exact inv_boot s.cfg rom hrom _ _ _

/-- Settles O16: a step is one action (`step_cases`), and each keeps the invariant (`Inv.perform`). -/
theorem everyActionKeepsTheInvariant : Obligations.EveryActionKeepsTheInvariant := by
  intro s t h ht
  obtain ⟨-, hs⟩ | ⟨a, rest, -, hs⟩ := step_cases s
  · exact h.interpreterStep (hs.symm.trans ht)
  · have popped : Inv { s with inputs := rest } := { h with }
    exact popped.perform a (hs.symm.trans ht)

end Sys2Proof.Machine
end

section
/-! PROOFS of 60_exceptions.md sections 5 to 8 and 70_reset_and_hazards.md: the tick, the key write, the reset, and the halted engine. -/

namespace Sys2Proof.Machine

/-! ## The tick and the key write (R237, R238, R242) -/

theorem soundActive_iff (s : State) : soundActive s = true ↔ 0 < s.ST.toNat := decide_eq_true_iff

/-- Settles O24: the tick counts each timer down (`countDown_toNat`) and touches nothing else. -/
theorem tickCountsBothTimersDown : Obligations.TickCountsBothTimersDown := fun s _ pending =>
  ⟨_, step_of_pending pending, countDown_toNat s.DT, countDown_toNat s.ST, fun _ => rfl, rfl⟩

theorem keyWrite_sets (s : State) (k : Key) (b : Bool) :
    keyDown (keyWrite s k b) k = b ∧ ∀ j, j ≠ k → keyDown (keyWrite s k b) j = keyDown s j :=
  ⟨by rw [keyDown_keyWrite, if_pos rfl], fun j hj => by rw [keyDown_keyWrite, if_neg hj]⟩

/-- Settles O26: one entry of KEYS is set (`keyWrite_sets`), no other field. -/
theorem keyWriteSetsThatKeyOnly : Obligations.KeyWriteSetsThatKeyOnly := by
  intro s k b rest pending
  obtain ⟨hk, others⟩ := keyWrite_sets { s with inputs := rest } k b
  exact ⟨_, step_of_pending pending, hk, others, fun _ => rfl, rfl⟩

/-- n ticks in a row take n off each timer, down to 0, and leave the pending list. -/
theorem run_ticks (n : Nat) (s : State) (rest : List Input) (pending : s.inputs = List.replicate n .tick60 ++ rest) :
    ∃ t : State, Sys2Proof.core.run n s = .next t ∧ t.DT.toNat = s.DT.toNat - n ∧ t.ST.toNat = s.ST.toNat - n ∧
      t = { s with DT := t.DT, ST := t.ST, inputs := rest } := by
  induction n generalizing s with
  | zero => exact ⟨s, rfl, rfl, rfl, by rw [← show s.inputs = rest from pending]⟩
  | succ n ih =>
    obtain ⟨u, hstep, hDT, hST, -, hu⟩ := tickCountsBothTimersDown s (List.replicate n Input.tick60 ++ rest) pending
    obtain ⟨t, hrun, hDT', hST', ht⟩ := ih u (by rw [hu])
    refine ⟨t, (run_succ n s u hstep).trans hrun, by omega, by omega, ?_⟩
    rw [ht, hu]

/-- Settles O25, by induction on the ticks (`run_ticks`). -/
theorem timersReachZeroAfterTheirTicks : Obligations.TimersReachZeroAfterTheirTicks := by
  intro n s rest pending
  obtain ⟨t, hrun, hDT, hST, ht⟩ := run_ticks n s rest pending
  refine ⟨t, hrun, hDT, hST, ?_, ht⟩
  rw [soundActive_iff, hST]
  omega

/-! ## Reset (R260 to R265) -/

theorem readV_boot (cfg : Config) (rom : List Byte) (i : RegIdx) : readV (State.boot cfg rom) i = 0 :=
  Vector.getElem_replicate _

theorem keyDown_boot (cfg : Config) (rom : List Byte) (k : Key) : keyDown (State.boot cfg rom) k = false :=
  Vector.getElem_replicate _

theorem pixel_blankScreen (r : Fin 32) (c : Fin 64) : pixel blankScreen r c = false := by
  simp [pixel, blankScreen]

/-- Settles O21: the fields of `State.boot`. -/
theorem resetRegisterValues : Obligations.ResetRegisterValues := by
  rintro cfg rom b rfl
  exact ⟨readV_boot cfg rom, rfl, rfl, rfl, rfl, rfl, rfl, pixel_blankScreen, keyDown_boot cfg rom, rfl, rfl, rfl, rfl, rfl⟩

theorem Memory.read_nil (a : Nat) : Memory.read [] a = 0x00 := rfl

/-- Settles O22: the font ends at or below 0x200, so the ROM is written behind it, and what neither covers is unlisted. -/
theorem resetMemoryImage : Obligations.ResetMemoryImage := by
  intro cfg rom hrom
  have hbase := cfg.fontBase.isLt
  have hfont : cfg.font.toList.length = 80 := cfg.font.length_toList
  have font_wf : Memory.wf (Memory.writeBytes [] cfg.fontBase.val cfg.font.toList) :=
    Memory.writeBytes_wf _ _ _ (by rw [hfont, Memory.size]; omega) Memory.wf_nil
  have outsideRom (a : Nat) (ha : a < 0x200 ∨ 0x200 + rom.length ≤ a) :
      (State.boot cfg rom).MEM.read a = Memory.read (Memory.writeBytes [] cfg.fontBase.val cfg.font.toList) a :=
    Memory.read_writeBytes_outside _ _ _ _ ha
  refine ⟨fun k => ?_, fun k hk => ?_, fun a hfontOut hromOut => ?_⟩
  · have hk := k.isLt
    rw [outsideRom _ (by omega)]
    exact (Memory.read_writeBytes_inside _ _ _ k.val (by omega) (by rw [hfont, Memory.size]; omega) Memory.wf_nil).trans
      (Vector.getElem_toList _)
  · exact Memory.read_writeBytes_inside _ _ _ k hk (by rw [Memory.size]; exact Nat.add_le_add_left hrom 512) font_wf
  · rw [outsideRom a hromOut, Memory.read_writeBytes_outside _ _ _ _ (by omega), Memory.read_nil]

/-- Settles O23: a reset with an admitted ROM answers the boot state with the host's side kept. -/
theorem resetRebuildsTheWholeState : Obligations.ResetRebuildsTheWholeState := by
  intro s rom rest pending hrom
  have hstep := step_of_pending pending
  obtain ⟨tooLong, -⟩ | ⟨-, hreset⟩ := resetAction_cases { s with inputs := rest } rom
  · exact absurd hrom (Nat.not_le.mpr tooLong)
  · exact ⟨_, hstep.trans hreset, .of_running rfl, rfl, rfl⟩

/-! ## Every action completes but a reset with an oversize ROM (R230) -/

theorem interpreterStep_completes (s : State) : ∃ t, interpreterStep s = .next t :=
  let ⟨t, ht, _⟩ := interpreterStep_timers s
  ⟨t, ht⟩

/-- Settles O15: only `resetAction` has a fault, and its condition is the length of the ROM. -/
theorem everyActionCompletesButAnOversizeRom : Obligations.EveryActionCompletesButAnOversizeRom := by
  intro s
  cases pending : s.inputs with
  | nil =>
    refine ⟨nofun, fun _ => ?_⟩
    rw [step_eq_interpreterStep (.inl pending)]
    exact interpreterStep_completes _
  | cons a rest =>
    rw [step_of_pending pending]
    cases a with
    | stepEn => exact ⟨nofun, fun _ => interpreterStep_completes _⟩
    | tick60 => exact ⟨nofun, fun _ => ⟨_, rfl⟩⟩
    | keyWr k b => exact ⟨nofun, fun _ => ⟨_, rfl⟩⟩
    | rst rom =>
      obtain ⟨tooLong, h⟩ | ⟨fits, h⟩ := resetAction_cases { s with inputs := rest } rom
      · exact ⟨fun _ => h, fun admitted => absurd (admitted rom rfl) (Nat.not_le.mpr tooLong)⟩
      · refine ⟨?_, fun _ => ⟨_, h⟩⟩
        rintro ⟨_, ⟨⟩, tooLong⟩
        exact absurd fits (Nat.not_le.mpr tooLong)

/-! ## The halted engine (R227, R233) -/

/-- Settles O14, action by action: a step of the halted Interpreter answers the same state, the tick and the key write touch the
timers and the keys alone, and a reset leaves MODE at Running. -/
theorem onlyResetLeavesTheHalt : Obligations.OnlyResetLeavesTheHalt := by
  intro s t halted ht
  have stays (u : State) (hu : u.MODE = s.MODE) : interpreterStep u = .next u := if_pos (hu.trans (of_not_not halted))
  cases pending : s.inputs with
  | nil =>
    rw [step_eq_interpreterStep (.inl pending), stays { s with inputs := s.inputs.tail } rfl, pending] at ht
    obtain rfl := Host.Outcome.next.inj ht
    exact ⟨fun _ => rfl, fun _ => ⟨halted, rfl⟩, nofun, nofun, nofun⟩
  | cons a rest =>
    rw [step_of_pending pending] at ht
    cases a with
    | stepEn =>
      obtain rfl := eq_of_next ht (stays _ rfl)
      exact ⟨fun _ => rfl, fun _ => ⟨halted, rfl⟩, nofun, nofun, nofun⟩
    | tick60 =>
      obtain rfl := Host.Outcome.next.inj ht
      exact ⟨by simp, fun _ => ⟨halted, rfl⟩, fun _ => ⟨countDown_toNat s.DT, countDown_toNat s.ST, fun _ => rfl⟩, nofun,
        nofun⟩
    | keyWr k b =>
      obtain rfl := Host.Outcome.next.inj ht
      refine ⟨by simp, fun _ => ⟨halted, rfl⟩, nofun, ?_, nofun⟩
      rintro _ _ ⟨⟩
      obtain ⟨hk, others⟩ := keyWrite_sets { s with inputs := rest } k b
      exact ⟨hk, others, rfl, rfl⟩
    | rst rom =>
      obtain ⟨-, h⟩ | ⟨-, h⟩ := resetAction_cases { s with inputs := rest } rom
      · exact absurd (ht.symm.trans h) nofun
      · obtain rfl := eq_of_next ht h
        exact ⟨by simp, fun noReset => absurd rfl (noReset rom), nofun, nofun, fun _ => .of_running rfl⟩

end Sys2Proof.Machine
end

section
/-! PROOFS of 40_control_flow.md: returns, calls and jumps (R121 to R124, R129). -/

namespace Sys2Proof.Machine

/-! ## Calls and returns -/

/-- A return with an entry in use (R121). -/
theorem exec_ret_of_pos {s : State} (h : 0 < s.SP.val) :
    ∃ k : Fin 17, k.val + 1 = s.SP.val ∧ exec .ret s = .next (goto { s with SP := k } s.STACK[s.SP.val - 1]) := by
  obtain ⟨empty, -⟩ | ⟨_, k, hk, hp⟩ := pop_spec s
  · omega
  · exact ⟨k, hk, by simp only [exec, execRet, hp]⟩

theorem exec_ret_of_empty {s : State} (h : s.SP.val = 0) :
    exec .ret s = .next (takeException s (.stackUnderflow (encode .ret))) := by
  obtain ⟨-, hp⟩ | ⟨hpos, -⟩ := pop_spec s
  · simp only [exec, execRet, hp]
  · omega

/-- A call with room for an entry (R124). -/
theorem exec_call_of_lt {s : State} (nnn : Addr) (h : s.SP.val < 16) :
    ∃ k : Fin 17, k.val = s.SP.val + 1 ∧
      exec (.call nnn) s = .next (goto { s with STACK := s.STACK.set s.SP.val (s.pc + 2) h, SP := k } nnn) := by
  obtain ⟨full, -⟩ | ⟨_, k, hk, hp⟩ := push_spec s (s.pc + 2)
  · omega
  · exact ⟨k, hk, by simp only [exec, execCall, hp]⟩

theorem exec_call_of_full {s : State} (nnn : Addr) (h : s.SP.val = 16) :
    exec (.call nnn) s = .next (takeException s (.stackOverflow (encode (.call nnn)))) := by
  obtain ⟨-, hp⟩ | ⟨hlt, -⟩ := push_spec s (s.pc + 2)
  · simp only [exec, execCall, hp]
  · omega

/-- Settles O29: the popped entry is the newest one (`exec_ret_of_pos`). -/
theorem returnTakesTheNewestEntry : Obligations.ReturnTakesTheNewestEntry := by
  intro s h
  obtain ⟨k, hk, hexec⟩ := exec_ret_of_pos h
  exact ⟨_, hexec, rfl, (Nat.sub_eq_of_eq_add hk.symm).symm, rfl, fun _ => rfl, rfl⟩

/-- Settles O30: the pushed entry is pc + 2, at the old SP (`exec_call_of_lt`). -/
theorem callPushesAndJumps : Obligations.CallPushesAndJumps := by
  intro s nnn h
  obtain ⟨k, hk, hexec⟩ := exec_call_of_lt nnn h
  refine ⟨_, hexec, rfl, ?_, fun j hj => ?_, hk, rfl, fun _ => rfl, rfl⟩
  · rw [goto_STACK, Vector.getElem_set_self]
    exact advance_goesOn s
  · exact Vector.getElem_set_ne h _ (Ne.symm hj)

/-- Settles O31: push and pop answer nothing at their limits, and each exception records its instruction's word. -/
theorem stackLimitsHalt : Obligations.StackLimitsHalt := by
  refine fun s => ⟨fun nnn full => ?_, fun empty => ?_⟩
  · exact ⟨_, exec_call_of_full nnn full, rfl, rfl, rfl, wordNNN_toNat 2 nnn, rfl⟩
  · exact ⟨_, exec_ret_of_empty empty, rfl, rfl, rfl, rfl, rfl⟩

/-- Settles O32: the call leaves pc + 2 as the newest entry, and with the stack as the call left it the return takes that
one. -/
theorem callThenReturnComesBack : Obligations.CallThenReturnComesBack := by
  intro s t u nnn hlt ht ⟨hSP, hSTACK⟩
  obtain ⟨k, hk, hcall⟩ := exec_call_of_lt nnn hlt
  obtain rfl := eq_of_next ht hcall
  have hdepth : u.SP.val = s.SP.val + 1 := (congrArg Fin.val hSP).trans hk
  obtain ⟨k', hk', hret⟩ := exec_ret_of_pos (s := u) (by omega)
  refine ⟨_, hret, ?_, Fin.ext (Nat.succ.inj (hk'.trans hdepth))⟩
  have newest : u.STACK[u.SP.val - 1] = s.pc + 2 := by
    simp only [hSTACK, hdepth, goto_STACK, Nat.add_sub_cancel, Vector.getElem_set_self]
  rw [goto_pc, newest]
  exact advance_goesOn s

/-! ## Jumps, and the machine-code call -/

/-- Settles O33: the event, and then the advance. -/
theorem machineCodeCallIsReportedAndSkipped : Obligations.MachineCodeCallIsReportedAndSkipped := fun _ _ =>
  ⟨_, rfl, advance_goesOn_two _, fun _ => rfl, rfl, rfl⟩

/-- Settles O34: row 4 of R96 is that of 1NNN. -/
theorem jumpGoesToItsAddress : Obligations.JumpGoesToItsAddress :=
  ⟨fun w => (decodeWord_row_iff w 3).mpr, fun _ _ => ⟨_, rfl, rfl, rfl, rfl, fun _ => rfl⟩⟩

theorem add_byte_toNat (a : Addr) (v : Byte) : (a + v.setWidth 12).toNat = (a.toNat + v.toNat) % 4096 := by
  have := v.isLt
  rw [BitVec.toNat_add, BitVec.toNat_setWidth, Nat.mod_eq_of_lt (by omega : v.toNat < 2 ^ 12)]

/-- Settles O35: a sum of 12-bit addresses is one modulo 4096 (`add_byte_toNat`). -/
theorem jumpWithOffsetWraps : Obligations.JumpWithOffsetWraps := fun s nnn =>
  ⟨_, rfl, add_byte_toNat nnn (readV s 0), rfl, rfl, fun _ => rfl⟩

end Sys2Proof.Machine
end

section
/-! PROOFS of 44_keypad_timers.md: the key skips, the wait for a key and the timer registers (R201 to R207). -/

namespace Sys2Proof.Machine

/-! ## The key skips (R201, R202) -/

theorem skipIf_goesOn (s : State) (c : Bool) : GoesOn (if c then 4 else 2) s (skipIf s c) :=
  ⟨skipIf_pc_toNat s c, skipIf_MODE s c⟩

theorem skipIf_onlyControl (s : State) (c : Bool) : OnlyControl s (skipIf s c) := by
  cases c
  · exact ⟨rfl, fun _ => rfl⟩
  · exact ⟨rfl, fun _ => rfl⟩

/-- Settles O54: the key tested is that of the low nibble (`lowNibble_val`), and each skip is `skipIf` on its state. -/
theorem keySkipsTestOneKey : Obligations.KeySkipsTestOneKey := by
  intro s x k hk
  obtain rfl : k = lowNibble (readV s x) := Fin.ext (hk.trans (lowNibble_val _).symm)
  refine ⟨⟨_, rfl, ?_, skipIf_onlyControl s _⟩, ⟨_, rfl, ?_, skipIf_onlyControl s _⟩⟩
  · have h := skipIf_goesOn s (keyDown s (lowNibble (readV s x)))
    cases hdown : keyDown s (lowNibble (readV s x))
    · simpa [hdown] using h
    · simpa [hdown] using h
  · have h := skipIf_goesOn s (!keyDown s (lowNibble (readV s x)))
    cases hdown : keyDown s (lowNibble (readV s x))
    · simpa [hdown] using h
    · simpa [hdown] using h

/-! ## The wait for a key (R204, R207) -/

theorem exec_ldVxK_of_none {s : State} (x : RegIdx) (h : ∀ k, keyDown s k = false) :
    exec (.ldVxK x) s = .next { s with MODE := .waitingForKey } := by
  have none : pressedKeys s = [] := List.eq_nil_iff_forall_not_mem.mpr fun k hk => by
    rw [mem_pressedKeys, h k] at hk
    exact absurd hk (by decide)
  simp only [exec, execLdVxK, none]

/-- With some key down FX0A stores the number of a pressed key, and by default of the lowest one. -/
theorem exec_ldVxK_of_some {s : State} (x : RegIdx) (h : ∃ k, keyDown s k = true) :
    ∃ k, keyDown s k = true ∧ (s.cfg.keySelect = .lowest → ∀ j, keyDown s j = true → k ≤ j) ∧
      exec (.ldVxK x) s = .next (advance (writeV s x (BitVec.ofNat 8 k.val))) := by
  obtain ⟨j, hj⟩ := h
  obtain ⟨k, ks, hkeys⟩ := List.exists_cons_of_ne_nil (List.ne_nil_of_mem ((mem_pressedKeys s j).mpr hj))
  refine ⟨selectKey s.cfg.keySelect k ks, ?_, fun hlow i hi => ?_, by simp only [exec, execLdVxK, hkeys]⟩
  · rw [← mem_pressedKeys, hkeys]
    exact selectKey_mem _ k ks
  · have sorted := pressedKeys_sorted s
    rw [hkeys, List.pairwise_cons] at sorted
    rw [← mem_pressedKeys, hkeys, List.mem_cons] at hi
    rw [hlow]
    obtain rfl | hi := hi
    · exact le_refl _
    · exact (sorted.1 i hi).le

theorem key_toNat (k : Key) : (BitVec.ofNat 8 k.val : Byte).toNat = k.val := by
  rw [BitVec.toNat_ofNat]
  omega

/-- Settles O56: the key stored is that of `exec_ldVxK_of_some`, and a byte holds its number. -/
theorem keyWaitCompletesOnAPressedKey : Obligations.KeyWaitCompletesOnAPressedKey := by
  intro s x h
  obtain ⟨k, hk, lowest, hexec⟩ := exec_ldVxK_of_some x h
  refine ⟨_, k, hexec, hk, ?_, lowest, writeV_keepsRegistersBut s x _, advance_goesOn_two _, rfl, fun _ => rfl⟩
  rw [readV_advance, readV_writeV, if_pos rfl, key_toNat]

/-- Settles O57: the waiting state differs in MODE alone, and after the key write the one key down is the one written. -/
theorem keyWaitIsReexecution : Obligations.KeyWaitIsReexecution := by
  intro s x none
  let waiting : State := { s with MODE := .waitingForKey }
  refine ⟨waiting, exec_ldVxK_of_none x none, rfl, rfl, exec_ldVxK_of_none (s := waiting) x none, fun k => ?_⟩
  obtain ⟨hk, others⟩ := keyWrite_sets waiting k true
  obtain ⟨j, hj, -, hexec⟩ := exec_ldVxK_of_some x ⟨k, hk⟩
  obtain rfl : j = k := of_not_not fun hne => Bool.false_ne_true (((others j hne).trans (none j)).symm.trans hj)
  refine ⟨_, hexec, ?_, advance_goesOn _, rfl⟩
  rw [readV_advance, readV_writeV, if_pos rfl, key_toNat]

/-! ## The timer registers (R203, R205, R206) -/

/-- Settles O55: rows 27, 29 and 30 of R96 are those of FX07, FX15 and FX18. -/
theorem timerRegistersAreReadAndWritten : Obligations.TimerRegistersAreReadAndWritten := by
  refine ⟨fun w => ⟨(decodeWord_row_iff w 26).mpr, (decodeWord_row_iff w 28).mpr, (decodeWord_row_iff w 29).mpr⟩,
    soundActive_iff, fun s x => ⟨⟨_, rfl, ?_, writeV_keepsRegistersBut s x _, advance_goesOn_two _, rfl, fun _ => rfl⟩, ?_, ?_⟩⟩
  · rw [readV_advance, readV_writeV, if_pos rfl]
  · exact ⟨_, rfl, rfl, countDown_toNat _, advance_goesOn_two { s with DT := readV s x }, fun _ => rfl, rfl⟩
  · exact ⟨_, rfl, rfl, soundActive_iff _, advance_goesOn_two { s with ST := readV s x }, fun _ => rfl, rfl⟩

end Sys2Proof.Machine
end

section
/-! PROOFS of 10_state.md section 4: the value each instruction leaves in pc (R27). -/

namespace Sys2Proof.Machine

/-- What an instruction with a bounds check leaves in pc: its own address beyond memory, else the next one. -/
theorem pc_of_access {i : Instr} {s t : State} {kmax : Nat} (ht : exec i s = .next t) (h : lastOffset i = some kmax)
    (inside : s.I.toNat + kmax ≤ 0xFFF → ∃ u : State, u.pc = s.pc ∧ exec i s = .next (advance u)) :
    t.pc.toNat = if s.I.toNat + kmax > 0xFFF then s.pc.toNat else (s.pc.toNat + 2) % 4096 := by
  split
  · next beyond =>
    obtain rfl := eq_of_next ht (exec_of_beyond h beyond)
    rfl
  · next hle =>
    obtain ⟨u, hpc, hu⟩ := inside (Nat.not_lt.mp hle)
    obtain rfl := eq_of_next ht hu
    rw [advance_goesOn, hpc]

/-- Settles O20, row by row of R27. -/
theorem pcFollowsItsTable : Obligations.PcFollowsItsTable := by
  intro i s t ht
  have skips (c : Bool) (hc : exec i s = .next (skipIf s c)) : t.pc.toNat = (s.pc.toNat + if c then 4 else 2) % 4096 := by
    obtain rfl := eq_of_next ht hc
    exact skipIf_pc_toNat s c
  cases i with
  | ret =>
    rw [pcAfter]
    split
    · next empty =>
      obtain rfl := eq_of_next ht (exec_ret_of_empty empty)
      rfl
    · next used =>
      obtain ⟨_, -, hexec⟩ := exec_ret_of_pos (Nat.pos_of_ne_zero used)
      obtain rfl := eq_of_next ht hexec
      rfl
  | call nnn =>
    rw [pcAfter]
    split
    · next full =>
      obtain rfl := eq_of_next ht (exec_call_of_full nnn full)
      rfl
    · next room =>
      obtain ⟨_, -, hexec⟩ := exec_call_of_lt nnn (Nat.lt_of_le_of_ne (Nat.le_of_lt_succ s.SP.isLt) room)
      obtain rfl := eq_of_next ht hexec
      rfl
  | jp nnn =>
    obtain rfl := Host.Outcome.next.inj ht
    rfl
  | jpV0Nnn nnn =>
    obtain rfl := Host.Outcome.next.inj ht
    exact add_byte_toNat nnn (readV s 0)
  | seVxNn x nn => simpa [pcAfter] using skips _ rfl
  | sneVxNn x nn => simpa [pcAfter] using skips _ rfl
  | seVxVy x y => simpa [pcAfter] using skips _ rfl
  | sneVxVy x y => simpa [pcAfter] using skips _ rfl
  | skpVx x => exact skips _ rfl
  | sknpVx x =>
    have h := skips _ rfl
    rw [pcAfter]
    cases hdown : keyDown s (lowNibble (readV s x))
    · simpa [hdown] using h
    · simpa [hdown] using h
  | ldVxK x =>
    rw [pcAfter]
    split
    · next down =>
      obtain ⟨_, -, -, hexec⟩ := exec_ldVxK_of_some x down
      obtain rfl := eq_of_next ht hexec
      exact advance_goesOn _
    · next up =>
      have none (k : Key) : keyDown s k = false := Bool.eq_false_of_not_eq_true fun h => up ⟨k, h⟩
      obtain rfl := eq_of_next ht (exec_ldVxK_of_none x none)
      rfl
  | drwVxVyN x y n =>
    rw [pcAfter]
    by_cases hn : n.toNat > 0
    · rw [pc_of_access ht (if_pos hn) fun h => ⟨_, by rfl, exec_drwVxVyN_inside x y (.inr (by omega))⟩, Nat.add_sub_assoc hn]
      simp only [hn, true_and]
    · have h0 : n = 0 := BitVec.eq_of_toNat_eq (Nat.eq_zero_of_not_pos hn)
      obtain rfl := eq_of_next ht (exec_drwVxVyN_inside x y (.inl h0))
      rw [if_neg fun h => hn h.1]
      exact advance_goesOn _
  | ldBVx x => exact pc_of_access ht rfl fun h => ⟨_, by rfl, exec_ldBVx_inside x h⟩
  | ldMemVx x => exact pc_of_access ht rfl fun h => ⟨_, by rfl, exec_ldMemVx_inside h⟩
  | ldVxMem x => exact pc_of_access ht rfl fun h => ⟨_, by rfl, exec_ldVxMem_inside h⟩
  | addIVx x =>
    obtain rfl := Host.Outcome.next.inj ht
    rw [advance_goesOn]
    split
    · rfl
    · rfl
  | _ =>
    obtain rfl := Host.Outcome.next.inj ht
    exact advance_goesOn _

end Sys2Proof.Machine
end

section
/-! PROOFS of 41_register_alu.md and 42_index_memory.md: logic, addition, subtraction, shifts and random (R144 to R152), and the sums and glyph addresses of I (R162, R163). -/

namespace Sys2Proof.Machine

/-! ## One register written (R144 to R146) -/

/-- Vx holds v, pc has moved by 2 modulo 4096, and nothing else differs. -/
structure Assigns (x : RegIdx) (v : Byte) (s t : State) : Prop where
  goesOn : GoesOn 2 s t
  others : KeepsRegistersBut x s t
  only : OnlyRegisters s t
  result : readV t x = v

theorem advance_writeV_assigns (s : State) (x : RegIdx) (v : Byte) : Assigns x v s (advance (writeV s x v)) where
  goesOn := advance_goesOn_two (writeV s x v)
  others := writeV_keepsRegistersBut s x v
  only := ⟨rfl, fun _ => rfl⟩
  result := by rw [readV_advance, readV_writeV, if_pos rfl]

/-- Settles O39: each of the three assigns the bitwise result. -/
theorem logicIsBitwiseWithoutFlag : Obligations.LogicIsBitwiseWithoutFlag := by
  intro s x y
  refine ⟨⟨_, rfl, ?_⟩, ⟨_, rfl, ?_⟩, ⟨_, rfl, ?_⟩⟩
  · obtain ⟨goesOn, others, only, result⟩ := advance_writeV_assigns s x (readV s x ||| readV s y)
    exact ⟨goesOn, others, only, fun k => by rw [result, BitVec.getLsbD_or]⟩
  · obtain ⟨goesOn, others, only, result⟩ := advance_writeV_assigns s x (readV s x &&& readV s y)
    exact ⟨goesOn, others, only, fun k => by rw [result, BitVec.getLsbD_and]⟩
  · obtain ⟨goesOn, others, only, result⟩ := advance_writeV_assigns s x (readV s x ^^^ readV s y)
    exact ⟨goesOn, others, only, fun k => by rw [result, BitVec.getLsbD_xor]⟩

/-! ## A result and a flag (R147 to R151, R153) -/

/-- Vx holds a byte of value r unless x = 15, VF holds f, pc has moved by 2 modulo 4096, and nothing else differs. -/
def AssignsWithFlag (x : RegIdx) (r f : Nat) (s t : State) : Prop :=
  GoesOn 2 s t ∧ OnlyRegisters s t ∧ (x ≠ 15 → (readV t x).toNat = r) ∧ (readV t 15).toNat = f ∧
    ∀ j, j ≠ x → j ≠ 15 → readV t j = readV s j

theorem advance_writeResultAndFlag_assigns {s : State} (x : RegIdx) {v : Byte} {flag : Bool} {r f : Nat} (hr : v.toNat = r)
    (hf : (if flag then 1 else 0) = f) : AssignsWithFlag x r f s (advance (writeResultAndFlag s x v flag)) := by
  refine ⟨advance_goesOn_two (writeResultAndFlag s x v flag), ⟨rfl, fun _ => rfl⟩, fun hx => ?_, ?_, fun j hx h15 => ?_⟩
  · rw [readV_advance, readV_writeResultAndFlag, if_neg hx, if_pos rfl, hr]
  · rw [readV_advance, readV_writeResultAndFlag, if_pos rfl, flagByte_toNat, hf]
  · rw [readV_advance, readV_writeResultAndFlag, if_neg h15, if_neg hx]

/-- Settles O40: a sum of bytes is one modulo 256, and `addCarry` says that the unwrapped sum exceeds 255. -/
theorem addLeavesSumAndCarry : Obligations.AddLeavesSumAndCarry := fun _ x _ =>
  ⟨_, rfl, advance_writeResultAndFlag_assigns x (BitVec.toNat_add _ _) (by simp [addCarry])⟩

theorem sub_toNat (a b : Byte) : (a - b).toNat = (a.toNat + 256 - b.toNat) % 256 := by
  have := b.isLt
  rw [BitVec.toNat_sub]
  omega

theorem noBorrow_flag (a b : Byte) : (if noBorrow a b then 1 else 0) = if b.toNat > a.toNat then 0 else 1 := by
  by_cases h : b.toNat > a.toNat <;> simp [noBorrow, h]

/-- Settles O41: `sub_toNat` and `noBorrow_flag`, with the operands exchanged for 8XY7. -/
theorem subtractionsLeaveDifferenceAndNotBorrow : Obligations.SubtractionsLeaveDifferenceAndNotBorrow := fun _ x _ =>
  ⟨⟨_, rfl, advance_writeResultAndFlag_assigns x (sub_toNat _ _) (noBorrow_flag _ _)⟩,
    ⟨_, rfl, advance_writeResultAndFlag_assigns x (sub_toNat _ _) (noBorrow_flag _ _)⟩⟩

/-- Bit k as a number. -/
theorem getLsbD_flag (a : Byte) (k : Nat) : (if a.getLsbD k then 1 else 0) = a.toNat / 2 ^ k % 2 := by
  rw [BitVec.getLsbD, Nat.testBit_eq_decide_div_mod_eq]
  obtain h | h := Nat.mod_two_eq_zero_or_one (a.toNat / 2 ^ k) <;> simp [h]

theorem shiftedOutRight_flag (a : Byte) : (if shiftedOutRight a then 1 else 0) = a.toNat % 2 := by
  rw [shiftedOutRight, getLsbD_flag, Nat.pow_zero, Nat.div_one]

theorem shiftedOutLeft_flag (a : Byte) : (if shiftedOutLeft a then 1 else 0) = a.toNat / 128 := by
  have := a.isLt
  rw [shiftedOutLeft, getLsbD_flag]
  omega

/-- Settles O42: y does not occur in the next state. -/
theorem shiftsMoveOneBitAndIgnoreY : Obligations.ShiftsMoveOneBitAndIgnoreY := fun _ x =>
  ⟨⟨_, fun _ => rfl, advance_writeResultAndFlag_assigns x (by simp [Nat.shiftRight_eq_div_pow]) (shiftedOutRight_flag _)⟩,
    ⟨_, fun _ => rfl, advance_writeResultAndFlag_assigns x (by simp [Nat.shiftLeft_eq]) (shiftedOutLeft_flag _)⟩⟩

/-! ## The random byte (R152) -/

/-- Settles O43: the bits of `r AND nn` are bits of nn. -/
theorem randomByteIsMasked : Obligations.RandomByteIsMasked := by
  intro s x nn
  obtain ⟨goesOn, others, -, result⟩ := advance_writeV_assigns s x (Config.rand s.draws &&& nn)
  refine ⟨_, rfl, goesOn, fun k hk => ?_, ?_, ⟨_, result⟩, others, fun _ => rfl, Nat.lt_succ_self _, rfl⟩
  · have masked := (congrArg (BitVec.getLsbD · k) result).symm.trans hk
    rw [BitVec.getLsbD_and, Bool.and_eq_true] at masked
    exact masked.2
  · rintro rfl
    exact result.trans BitVec.and_zero

/-! ## The address register (R162, R163) -/

theorem indexOverflow_flag (i : Addr) (v : Byte) :
    (if indexOverflow i v then 1 else 0) = if i.toNat + v.toNat > 0xFFF then 1 else 0 := by
  simp [indexOverflow]

/-- FX1E without and with FX1E_SETS_VF, where VF receives the flag last. -/
theorem exec_addIVx (x : RegIdx) (s : State) :
    (s.cfg.fx1eSetsVF = false → exec (.addIVx x) s = .next (advance { s with I := s.I + (readV s x).setWidth 12 })) ∧
      (s.cfg.fx1eSetsVF = true → exec (.addIVx x) s =
        .next (advance (writeVF { s with I := s.I + (readV s x).setWidth 12 } (indexOverflow s.I (readV s x))))) := by
  constructor
  · intro h
    simp only [exec, execAddIVx, h, Bool.false_eq_true, if_false]
  · intro h
    simp only [exec, execAddIVx, h, if_true]

/-- Settles O45, for each value of FX1E_SETS_VF (`exec_addIVx`): the sum of I and a byte is one modulo 4096
(`add_byte_toNat`). -/
theorem addToAddressRegisterWraps : Obligations.AddToAddressRegisterWraps := by
  intro s x
  let summed : State := { s with I := s.I + (readV s x).setWidth 12 }
  obtain ⟨without, withFlag⟩ := exec_addIVx x s
  cases hcfg : s.cfg.fx1eSetsVF
  · exact ⟨_, without hcfg, advance_goesOn_two summed, add_byte_toNat _ _, fun _ _ => rfl, fun _ => rfl, nofun,
      fun _ => rfl, rfl⟩
  · refine ⟨_, withFlag hcfg, advance_goesOn_two (writeVF summed _), add_byte_toNat _ _, ?_, fun _ => rfl, fun _ => ?_,
      nofun, rfl⟩
    · exact writeV_keepsRegistersBut summed 15 _
    · rw [readV_advance, readV_writeVF, if_pos rfl, flagByte_toNat, indexOverflow_flag]

/-- Settles O46: the digit is the low nibble, and a glyph address is below 0x200 since FONT_BASE is at most 432. -/
theorem glyphAddressOfTheDigit : Obligations.GlyphAddressOfTheDigit := by
  intro s x
  have haddr := glyphAddr_toNat s.cfg (lowNibble (readV s x))
  have := s.cfg.fontBase.isLt
  rw [lowNibble_val] at haddr
  exact ⟨_, rfl, advance_goesOn_two { s with I := _ }, haddr, by rw [advance_I, haddr]; omega, fun _ => rfl, rfl⟩

end Sys2Proof.Machine
end

section
/-! PROOFS of 43_display.md: the clear (R181), the draw cell by cell (R180, R182), and drawing twice (R183). -/

namespace Sys2Proof.Machine

/-- Settles O51: every row becomes 0 (`pixel_blankScreen`). -/
theorem clearTurnsEveryCellOff : Obligations.ClearTurnsEveryCellOff := fun _ =>
  ⟨_, rfl, advance_goesOn_two _, pixel_blankScreen, fun _ => rfl, rfl, rfl⟩

/-! ## The draw -/

/-- The cells that the 1 pixels of a DXYN land on. -/
def drawnCells (s : State) (x y : RegIdx) (n : BitVec 4) : List (Fin 32 × Fin 64) :=
  spriteCells ((readV s x).toNat % 64) ((readV s y).toNat % 32) n.toNat (readAtI s)

theorem mem_drawnCells (s : State) (x y : RegIdx) (n : BitVec 4) (row : Fin 32) (col : Fin 64) :
    (row, col) ∈ drawnCells s x y n ↔ SpriteCovers s x y n row col := by
  simp only [drawnCells, mem_spriteCells, SpriteCovers, Nat.mod_add_mod, spriteBit]

/-- What a DXYN computes: each drawn cell is flipped, and the collision is a drawn cell that was on. -/
theorem drawn_spec (s : State) (x y : RegIdx) (n : BitVec 4) :
    (∀ row col, pixel (drawn s x y n).1 row col = (pixel s.FB row col ^^ decide ((row, col) ∈ drawnCells s x y n))) ∧
      ((drawn s x y n).2 = true ↔ ∃ row col, (row, col) ∈ drawnCells s x y n ∧ pixel s.FB row col = true) :=
  blitSprite_spec _ _ _ _ _ (by have := n.isLt; omega)

/-- The state a completed DXYN leaves (`exec_drwVxVyN_inside`). -/
def afterDraw (s : State) (x y : RegIdx) (n : BitVec 4) : State :=
  advance (emit (writeVF { s with FB := (drawn s x y n).1 } (drawn s x y n).2) .fbChanged)

theorem readV_afterDraw_VF (s : State) (x y : RegIdx) (n : BitVec 4) :
    readV (afterDraw s x y n) 15 = flagByte (drawn s x y n).2 := by
  rw [afterDraw, readV_advance, readV_emit, readV_writeVF, if_pos rfl]

theorem afterDraw_keepsRegistersBut (s : State) (x y : RegIdx) (n : BitVec 4) :
    KeepsRegistersBut 15 s (afterDraw s x y n) :=
  writeV_keepsRegistersBut { s with FB := (drawn s x y n).1 } 15 _

/-- Settles O52: the draw is that of `drawn_spec`, and the drawn cells are those the sprite covers (`mem_drawnCells`). -/
theorem drawFlipsCoveredCells : Obligations.DrawFlipsCoveredCells := by
  intro s x y n inside
  obtain ⟨cells, hit⟩ := drawn_spec s x y n
  simp only [mem_drawnCells] at hit
  refine ⟨afterDraw s x y n, exec_drwVxVyN_inside x y inside, ⟨advance_goesOn _, rfl⟩, fun r c covered => ?_,
    fun r c uncovered => ?_, fun on => ?_, fun off => ?_, afterDraw_keepsRegistersBut s x y n, fun _ => rfl, rfl⟩
  · exact (cells r c).trans (by rw [decide_eq_true ((mem_drawnCells s x y n r c).mpr covered), Bool.xor_true])
  · exact (cells r c).trans (by rw [decide_eq_false (mt (mem_drawnCells s x y n r c).mp uncovered), Bool.xor_false])
  · rw [readV_afterDraw_VF, hit.mpr on]
    rfl
  · rw [readV_afterDraw_VF, Bool.eq_false_of_not_eq_true (mt hit.mp off)]
    rfl

/-! ## Drawing twice (R183) -/

/-- A cell flipped twice is as it was. -/
theorem blitSprite_twice (fb : Screen) (x0 y0 n : Nat) (bytes : Nat → Byte) (hn : n ≤ 15) :
    (blitSprite (blitSprite fb x0 y0 n bytes).1 x0 y0 n bytes).1 = fb := by
  refine screen_ext _ _ fun row col => ?_
  obtain ⟨first, -⟩ := blitSprite_spec fb x0 y0 n bytes (by omega)
  obtain ⟨second, -⟩ := blitSprite_spec (blitSprite fb x0 y0 n bytes).1 x0 y0 n bytes (by omega)
  rw [second, first, Bool.xor_assoc, Bool.xor_self, Bool.xor_false]

theorem flagByte_eq_one_iff (b : Bool) : flagByte b = 1 ↔ b = true := by cases b <;> decide

/-- A draw with coordinates not in VF leaves Vx, Vy, I and memory, so the next one draws the same sprite at the same
place. -/
theorem drawn_afterDraw {x y : RegIdx} (hx : x ≠ 15) (hy : y ≠ 15) (s : State) (n : BitVec 4) :
    drawn (afterDraw s x y n) x y n =
      blitSprite (drawn s x y n).1 ((readV s x).toNat % 64) ((readV s y).toNat % 32) n.toNat (readAtI s) := by
  rw [drawn, afterDraw_keepsRegistersBut s x y n x hx, afterDraw_keepsRegistersBut s x y n y hy]
  rfl

/-- A drawn cell is on after the draw exactly where the draw turned it on. -/
theorem exists_drawn_on_iff (s : State) (x y : RegIdx) (n : BitVec 4) :
    (∃ r c, (r, c) ∈ drawnCells s x y n ∧ pixel (drawn s x y n).1 r c = true) ↔
      ∃ r c, pixel s.FB r c = false ∧ pixel (drawn s x y n).1 r c = true := by
  obtain ⟨cells, -⟩ := drawn_spec s x y n
  refine exists_congr fun r => exists_congr fun c => and_congr_left fun on => ?_
  rw [cells] at on
  by_cases h : (r, c) ∈ drawnCells s x y n
  · simpa [h] using on
  · simpa [h] using on

/-- Settles O53: the second draw is of the same sprite at the same place (`drawn_afterDraw`), so it restores the framebuffer
(`blitSprite_twice`), and it collides with the cells the first turned on. -/
theorem drawingTwiceRestoresTheScreen : Obligations.DrawingTwiceRestoresTheScreen := by
  refine ⟨blitSprite_twice, fun s x y n hx hy inside => ?_⟩
  have again := drawn_afterDraw hx hy s n
  have hn : n.toNat ≤ 15 := Nat.le_of_lt_succ n.isLt
  refine ⟨afterDraw s x y n, afterDraw (afterDraw s x y n) x y n, exec_drwVxVyN_inside x y inside,
    exec_drwVxVyN_inside (s := afterDraw s x y n) x y inside, ?_, ?_⟩
  · exact (congrArg Prod.fst again).trans (blitSprite_twice _ _ _ _ _ hn)
  · obtain ⟨-, hit⟩ := blitSprite_spec (drawn s x y n).1 ((readV s x).toNat % 64) ((readV s y).toNat % 32) n.toNat
      (readAtI s) (by omega)
    rw [readV_afterDraw_VF, flagByte_eq_one_iff, again, hit]
    exact exists_drawn_on_iff s x y n

end Sys2Proof.Machine
end
